-- ==== Sys2Proof/Word.lean ====
section
/-! DEFINITION. The word types of the block: port words, binary32 patterns and complex samples. -/

namespace Sys2Proof

/-- Every value crossing a port is a sequence of these (20_memory R103). -/
abbrev Word := BitVec 32

abbrev Byte := BitVec 8

/-- A Real Sample: the binary32 bit pattern of 00_scope R16, stored and moved bit-exactly (20_memory R110). -/
abbrev F32 := BitVec 32

/-- A Complex Sample, in-phase lane first (00_scope R17). -/
structure C32 where
  re : F32
  im : F32
  deriving DecidableEq, Repr, Inhabited

end Sys2Proof
end

