-- ==== Sys2Proof/Config.lean ====
section
/-! DEFINITION. What one instance of the block fixes (00_scope R12), and the values the spec leaves open. -/

namespace Sys2Proof

/-- QUEUE_VIEW (20_memory R112). -/
inductive QueueView
  | exact
  | conservative
  deriving DecidableEq, Repr

/-- UNDERRUN_CONSUME (45_ports R314). -/
inductive UnderrunConsume
  | keep
  | discard
  deriving DecidableEq, Repr

/-- The build-time parameters of 00_scope R12 that are plain data. They stand in State.cfg, which no step writes
(notes/assumptions/1.md). The functions WINDOW_FN and NUM are the opaque constants of Config below. -/
structure Params where
  nmax            : Nat
  capIn           : Nat
  capOut          : Nat
  h0              : List F32
  h1              : List F32
  h2              : List F32
  audioGain       : F32
  fmGain          : F32
  queueView       : QueueView
  underrunConsume : UnderrunConsume
  deriving DecidableEq, Repr

/-- The instance State.reset is built for. DESIGN CHOICE (notes/assumptions/1.md), except the defaults of QUEUE_VIEW and
UNDERRUN_CONSUME and the reference value 1.0 of FM_GAIN, which 00_scope R12 gives. -/
def Params.reference : Params where
  nmax            := 16384
  capIn           := 32768
  capOut          := 8192
  h0              := [0x3F800000]
  h1              := [0x3F800000]
  h2              := [0x3F800000]
  audioGain       := 0x3F800000
  fmGain          := 0x3F800000
  queueView       := .exact
  underrunConsume := .keep

/-- The binary32 operations of 00_scope R18. -/
inductive ArithOp
  | mul
  | add
  | sub
  deriving DecidableEq, Repr

/-- A rational as a pair in lowest terms, the second argument of NUM.offset (00_scope R22). -/
structure Ratio where
  num : Nat
  den : Nat
  deriving DecidableEq, Repr

/-- The storages whose elements hold no value until they are written (10_state R90). -/
inductive Storage
  | iq
  | oq
  | wb
  | db
  | nb
  | au
  | pwWb
  | pwNb
  | win
  deriving DecidableEq, Repr

namespace Config

/-- FREE VALUE: what element `i` of an f32 storage reads as before any write (10_state R90; notes/assumptions/6.md). -/
opaque unwrittenReal : Storage → Nat → F32

/-- FREE VALUE: what element `i` of a c32 storage reads as before any write (10_state R90; notes/assumptions/6.md). -/
opaque unwrittenComplex : Storage → Nat → C32

/-- FREE VALUE: what element `i` of WB, DB or NB reads as before the worker writes it in a cycle. The first number tells the
cycles apart (10_state R64; notes/assumptions/19.md). -/
opaque workComplex : Storage → Nat → Nat → C32

/-- FREE VALUE: what element `i` of AU reads as before the worker writes it in a cycle (10_state R64;
notes/assumptions/19.md). -/
opaque workReal : Nat → Nat → F32

/-- FREE VALUE: sign and payload bits of a NaN that an arithmetic operation returns
(93_implementation_defined section 1, NaN payloads; notes/assumptions/9.md). -/
opaque nanBits : ArithOp → F32 → F32 → Word

/-- FREE VALUE: whether the instance's NUM has the property 42_decimator R250, 44_fm_audio R301 and 46_control R336 ascribe to
it, that what is not finite stays so. 00_scope R22 assumes nothing beyond R23, and a claim about more "must assume a named
property of NUM" (R23): this is its name (notes/assumptions/8.md, 24.md). -/
opaque numKeepsInfinities : Bool

/-- NUM.fir outside what 00_scope R23 fixes: taps, then samples newest first. -/
opaque freeFir : List F32 → List F32 → F32

/-- NUM.dft outside what 00_scope R23 fixes: bin `k` of the transform of a block. -/
opaque freeDft : List C32 → Nat → C32

/-- NUM.db outside what 00_scope R23 fixes. -/
opaque freeDb : F32 → F32

/-- NUM.phase outside what 00_scope R23 fixes. -/
opaque freePhase : C32 → C32 → F32

/-- NUM.offset outside what 00_scope R23 fixes. -/
opaque freeOffset : F32 → Ratio → F32 → F32

/-- WINDOW_FN (n, N), a parameter of 00_scope R12 (43_spectrum R262). -/
opaque windowFn : Nat → Nat → F32

end Config

end Sys2Proof
end

