-- ==== Sys2Proof/Syntax.lean ====
section
/-! DEFINITION. The commands of the block: one constructor per row of spec/opcode_table.json. -/

namespace Sys2Proof

/-- The ports of 30_encoding R136. -/
inductive Port
  | p
  | w
  | a
  | s
  | h
  deriving DecidableEq, Repr

/-- The ports an external agent drives: all but the worker's, which "may not be driven by any external agent"
(60_exceptions R390). -/
inductive ExtPort
  | p
  | a
  | s
  | h
  deriving DecidableEq, Repr

/-- QS (30_encoding R135). -/
inductive QueueSel
  | iq
  | oq
  deriving DecidableEq, Repr

/-- The c32 buffers, ids 0 to 2 (30_encoding R140). -/
inductive CBuf
  | wb
  | db
  | nb
  deriving DecidableEq, Repr

/-- The buffers BUF_COPY accepts, ids 0 to 3 (30_encoding R145). -/
inductive WorkBuf
  | complex (b : CBuf)
  | au
  deriving DecidableEq, Repr

/-- The two Power Spectrum Buffers: ids 4 and 5 of SPEC_POWER, SEL 0 and 1 of SNAP_READ (30_encoding R140, R143). -/
inductive PowerBuf
  | wide
  | narrow
  deriving DecidableEq, Repr

/-- LS, a session length (30_encoding R139); the code 0b11 is reserved and has no constructor. -/
inductive Len
  | n
  | m
  | k
  deriving DecidableEq, Repr

/-- A command with its operands and payload, as decoding leaves it (30_encoding R144). -/
inductive Instr
  /-- QWRITE IQ, port P (40_queue R170): the block's samples. -/
  | qwriteIq (block : List C32)
  /-- QWRITE OQ, AU, L, port W (40_queue R177). -/
  | qwriteOq (len : Len)
  /-- QREAD IQ, buf, L, port W (40_queue R180). -/
  | qread (dst : CBuf) (len : Len)
  /-- QAVAIL, port H (40_queue R185). -/
  | qavail (q : QueueSel)
  /-- QOPEN, port H (40_queue R188). -/
  | qopen (q : QueueSel)
  /-- QCLOSE, port H (40_queue R191). -/
  | qclose (q : QueueSel)
  /-- ACQ_START, port H (46_control R330). -/
  | acqStart
  /-- ACQ_STOP, port H (46_control R340). -/
  | acqStop
  /-- CSR_READ addr, port H (46_control R350). -/
  | csrRead (addr : BitVec 12)
  /-- CSR_WRITE addr, v, port H (46_control R355). -/
  | csrWrite (addr : BitVec 12) (value : Word)
  /-- DEV_FAULT, port P (46_control R360). -/
  | devFault
  /-- AUD_PULL #F, port A (45_ports R310). -/
  | audPull (frames : Nat)
  /-- SNAP_READ WB|NB, #c, port S (45_ports R318). -/
  | snapRead (sel : PowerBuf) (count : Nat)
  /-- BUF_COPY src, dst, L, port W (41_worker R220). -/
  | bufCopy (src dst : WorkBuf) (len : Len)
  /-- WIN_APPLY WIN, dst, L, port W (43_spectrum R260). -/
  | winApply (dst : CBuf) (len : Len)
  /-- FFT_FWD buf, buf, L, port W (43_spectrum R265). -/
  | fftFwd (buf : CBuf) (len : Len)
  /-- SPEC_POWER src, dst, L, port W (43_spectrum R270). -/
  | specPower (src : CBuf) (dst : PowerBuf) (len : Len)
  /-- DECIMATE.0 src, dst, L, port W (42_decimator R240). -/
  | decimate0 (src dst : CBuf) (len : Len)
  /-- DECIMATE.1 AU, AU, L, port W (42_decimator R248). -/
  | decimate1 (len : Len)
  /-- FM_DEMOD src, AU, L, port W (44_fm_audio R290). -/
  | fmDemod (src : CBuf) (len : Len)
  /-- LPF AU, AU, L, port W (44_fm_audio R298). -/
  | lpf (len : Len)
  /-- SEQ_TOP, port W (41_worker R210). -/
  | seqTop
  /-- SEQ_WAIT, port W (41_worker R212). -/
  | seqWait
  /-- SEQ_LATCH, port W (41_worker R216). -/
  | seqLatch
  /-- SEQ_JSHORT tgt, port W (41_worker R218). -/
  | seqJshort (target : Nat)
  /-- SEQ_END, port W (41_worker R224). -/
  | seqEnd
  deriving DecidableEq, Repr

end Sys2Proof
end

