-- ==== Sys2Proof/WellFormed.lean ====
section
/-! DEFINITION. The operand ranges and types of 30_encoding R137 to R145 that the types of Syntax do not already enforce. -/

namespace Sys2Proof

/-- Whether BUF_COPY moves c32 elements (30_encoding R140). -/
def WorkBuf.isComplex : WorkBuf → Bool
  | .complex _ => true
  | .au => false

/-- CNT is a 24-bit count (30_encoding R137, R138). -/
def countFits (n : Nat) : Bool := n < 2 ^ 24

/-- TGT is a ROM address, 0 to 16 (30_encoding R142). -/
def targetFits (n : Nat) : Bool := n ≤ 16

/-- The operands have values that 30_encoding R135 to R145 allow. -/
def Instr.wf : Instr → Bool
  | .qwriteIq block => countFits block.length
  | .qwriteOq _ => true
  | .qread _ _ => true
  | .qavail _ => true
  | .qopen _ => true
  | .qclose _ => true
  | .acqStart => true
  | .acqStop => true
  | .csrRead _ => true
  | .csrWrite _ _ => true
  | .devFault => true
  | .audPull frames => countFits frames
  | .snapRead _ count => countFits count
  | .bufCopy src dst _ => src.isComplex == dst.isComplex
  | .winApply _ _ => true
  | .fftFwd _ _ => true
  | .specPower _ _ _ => true
  | .decimate0 _ _ _ => true
  | .decimate1 _ => true
  | .fmDemod _ _ => true
  | .lpf _ => true
  | .seqTop => true
  | .seqWait => true
  | .seqLatch => true
  | .seqJshort target => targetFits target
  | .seqEnd => true

end Sys2Proof
end

