-- ==== Sys2Proof/Decode.lean ====
section
/-! DEFINITION. From command words to commands and back (30_encoding): a total decoder on any word, payload or byte
string of any port, rejecting by name, and the encoder written from the same tables. -/

namespace Sys2Proof

/-- Why a command is illegal (30_encoding R150). Every reason has the same effect (60_exceptions R372). -/
inductive Reject
  /-- OP has no row in 30_encoding R144. -/
  | unassignedOpcode
  /-- The port does not accept the opcode (30_encoding R136). -/
  | wrongPort
  /-- A bit marked 0 in the format is 1 (30_encoding R131). -/
  | reservedBit
  /-- An operand has a value 30_encoding R135 to R145 do not allow. -/
  | operand
  /-- The payload length differs from 30_encoding R147. -/
  | payloadLength
  deriving DecidableEq, Repr

/-- The unsigned field of `len` bits from bit `lo` (00_scope R14). -/
def field (w : Word) (lo len : Nat) : Nat := w.toNat / 2 ^ lo % 2 ^ len

/-- OP = w[31:26] in every format (30_encoding R130). -/
def opcode (w : Word) : Nat := field w 26 6

/-- The OP values 30_encoding R144 assigns. -/
def assignedOpcodes : List Nat :=
  [0x01, 0x02, 0x03, 0x04, 0x05, 0x08, 0x09, 0x0A, 0x0B, 0x0C, 0x10, 0x11,
   0x20, 0x21, 0x22, 0x23, 0x24, 0x25, 0x26, 0x30, 0x31, 0x32, 0x33, 0x34]

/-- The rejection of an opcode the port does not accept. -/
def unaccepted (op : Nat) : Except Reject Instr :=
  if assignedOpcodes.contains op then .error .wrongPort else .error .unassignedOpcode

/-- QS (30_encoding R135). -/
def QueueSel.ofBit : Nat → QueueSel
  | 0 => .iq
  | _ => .oq

/-- Buffer ids 0 to 2 (30_encoding R140). -/
def CBuf.ofId : Nat → Option CBuf
  | 0 => some .wb
  | 1 => some .db
  | 2 => some .nb
  | _ => none

/-- Buffer ids 0 to 3 (30_encoding R140). -/
def WorkBuf.ofId : Nat → Option WorkBuf
  | 0 => some (.complex .wb)
  | 1 => some (.complex .db)
  | 2 => some (.complex .nb)
  | 3 => some .au
  | _ => none

/-- Buffer ids 4 and 5 (30_encoding R140). -/
def PowerBuf.ofId : Nat → Option PowerBuf
  | 4 => some .wide
  | 5 => some .narrow
  | _ => none

/-- SEL (30_encoding R143). -/
def PowerBuf.ofSel : Nat → PowerBuf
  | 0 => .wide
  | _ => .narrow

/-- LS (30_encoding R139). -/
def Len.ofField : Nat → Option Len
  | 0 => some .n
  | 1 => some .m
  | 2 => some .k
  | _ => none

/-- The buffer ids the encoder writes (30_encoding R140). -/
def CBuf.id : CBuf → Nat
  | .wb => 0
  | .db => 1
  | .nb => 2

def WorkBuf.id : WorkBuf → Nat
  | .complex b => b.id
  | .au => 3

def PowerBuf.id : PowerBuf → Nat
  | .wide => 4
  | .narrow => 5

def PowerBuf.sel : PowerBuf → Nat
  | .wide => 0
  | .narrow => 1

def QueueSel.bit : QueueSel → Nat
  | .iq => 0
  | .oq => 1

def Len.code : Len → Nat
  | .n => 0
  | .m => 1
  | .k => 2

/-- Payload words as c32 samples, in-phase word first; none for an odd number of words (20_memory R103). -/
def samplesOfWords : List Word → Option (List C32)
  | [] => some []
  | [_] => none
  | re :: im :: rest => (samplesOfWords rest).map (⟨re, im⟩ :: ·)

/-- A block as payload words (20_memory R103). -/
def wordsOfSamples : List C32 → List Word
  | [] => []
  | x :: xs => x.re :: x.im :: wordsOfSamples xs

/-- A command that carries no payload (30_encoding R147). -/
def withoutPayload (payload : List Word) (i : Instr) : Except Reject Instr :=
  match payload with
  | [] => .ok i
  | _ :: _ => .error .payloadLength

/-- Format N: bits 25:0 are zero (30_encoding R131). -/
def decodeBare (w : Word) (payload : List Word) (i : Instr) : Except Reject Instr :=
  if field w 0 26 ≠ 0 then .error .reservedBit else withoutPayload payload i

/-- Format Q of QWRITE on port P: QS = 0, C = 1, payload 2 * CNT words (30_encoding R135, R147). -/
def decodeQwriteIq (w : Word) (payload : List Word) : Except Reject Instr :=
  if field w 25 1 ≠ 0 ∨ field w 24 1 ≠ 1 then .error .operand
  else match samplesOfWords payload with
    | none => .error .payloadLength
    | some block => if block.length = field w 0 24 then .ok (.qwriteIq block) else .error .payloadLength

/-- Format Q on port H: C = 0, CNT = 0 (30_encoding R144). -/
def decodeQueueSelect (w : Word) (payload : List Word) (mk : QueueSel → Instr) : Except Reject Instr :=
  if field w 0 25 ≠ 0 then .error .operand
  else withoutPayload payload (mk (QueueSel.ofBit (field w 25 1)))

/-- Format QB of QWRITE on port W: QS = 1, C = 0, BUF = 3, LS not 3 (30_encoding R144, R145). -/
def decodeQwriteOq (w : Word) (payload : List Word) : Except Reject Instr :=
  if field w 0 19 ≠ 0 then .error .reservedBit
  else if field w 25 1 ≠ 1 ∨ field w 24 1 ≠ 0 ∨ field w 21 3 ≠ 3 then .error .operand
  else match Len.ofField (field w 19 2) with
    | none => .error .operand
    | some len => withoutPayload payload (.qwriteOq len)

/-- Format QB of QREAD: QS = 0, C = 1, BUF a c32 id, LS not 3 (30_encoding R144, R145). -/
def decodeQread (w : Word) (payload : List Word) : Except Reject Instr :=
  if field w 0 19 ≠ 0 then .error .reservedBit
  else if field w 25 1 ≠ 0 ∨ field w 24 1 ≠ 1 then .error .operand
  else match CBuf.ofId (field w 21 3), Len.ofField (field w 19 2) with
    | some dst, some len => withoutPayload payload (.qread dst len)
    | _, _ => .error .operand

/-- Format E: bits 16:0 are zero; `select` is the opcode's row of 30_encoding R145 on SRC, DST and INST. -/
def decodeEngine (w : Word) (payload : List Word) (select : Nat → Nat → Nat → Len → Option Instr) : Except Reject Instr :=
  if field w 0 17 ≠ 0 then .error .reservedBit
  else match Len.ofField (field w 18 2) with
    | none => .error .operand
    | some len =>
      match select (field w 23 3) (field w 20 3) (field w 17 1) len with
      | none => .error .operand
      | some i => withoutPayload payload i

/-- BUF_COPY: c or 3 to the same element type, INST = 0 (30_encoding R145). -/
def selectBufCopy (src dst inst : Nat) (len : Len) : Option Instr :=
  match WorkBuf.ofId src, WorkBuf.ofId dst with
  | some a, some b => if inst = 0 ∧ a.isComplex = b.isComplex then some (.bufCopy a b len) else none
  | _, _ => none

/-- WIN_APPLY: SRC = 6, DST a c32 id, INST = 0 (30_encoding R145). -/
def selectWinApply (src dst inst : Nat) (len : Len) : Option Instr :=
  if src = 6 ∧ inst = 0 then (CBuf.ofId dst).map (.winApply · len) else none

/-- FFT_FWD: SRC a c32 id, DST equal to SRC, INST = 0 (30_encoding R145). -/
def selectFftFwd (src dst inst : Nat) (len : Len) : Option Instr :=
  if dst = src ∧ inst = 0 then (CBuf.ofId src).map (.fftFwd · len) else none

/-- SPEC_POWER: SRC a c32 id, DST 4 or 5, INST = 0 (30_encoding R145). -/
def selectSpecPower (src dst inst : Nat) (len : Len) : Option Instr :=
  match CBuf.ofId src, PowerBuf.ofId dst with
  | some a, some b => if inst = 0 then some (.specPower a b len) else none
  | _, _ => none

/-- DECIMATE: INST = 0 between c32 buffers, INST = 1 on AU (30_encoding R141, R145). -/
def selectDecimate (src dst inst : Nat) (len : Len) : Option Instr :=
  if inst = 0 then
    match CBuf.ofId src, CBuf.ofId dst with
    | some a, some b => some (.decimate0 a b len)
    | _, _ => none
  else if src = 3 ∧ dst = 3 then some (.decimate1 len) else none

/-- FM_DEMOD: SRC a c32 id, DST = 3, INST = 0 (30_encoding R145). -/
def selectFmDemod (src dst inst : Nat) (len : Len) : Option Instr :=
  if dst = 3 ∧ inst = 0 then (CBuf.ofId src).map (.fmDemod · len) else none

/-- LPF: SRC = DST = 3, INST = 0 (30_encoding R145). -/
def selectLpf (src dst inst : Nat) (len : Len) : Option Instr :=
  if src = 3 ∧ dst = 3 ∧ inst = 0 then some (.lpf len) else none

/-- Format J: bits 25:5 are zero, TGT at most 16 (30_encoding R131, R142). -/
def decodeJump (w : Word) (payload : List Word) : Except Reject Instr :=
  if field w 5 21 ≠ 0 then .error .reservedBit
  else if targetFits (field w 0 5) then withoutPayload payload (.seqJshort (field w 0 5)) else .error .operand

/-- Format R of CSR_READ: bits 25:12 are zero (30_encoding R131). -/
def decodeCsrRead (w : Word) (payload : List Word) : Except Reject Instr :=
  if field w 12 14 ≠ 0 then .error .reservedBit
  else withoutPayload payload (.csrRead (BitVec.ofNat 12 (field w 0 12)))

/-- Format R of CSR_WRITE: bits 25:12 are zero, one payload word (30_encoding R131, R147). -/
def decodeCsrWrite (w : Word) (payload : List Word) : Except Reject Instr :=
  if field w 12 14 ≠ 0 then .error .reservedBit
  else match payload with
    | [v] => .ok (.csrWrite (BitVec.ofNat 12 (field w 0 12)) v)
    | _ => .error .payloadLength

/-- Format K: bits 25:24 are zero (30_encoding R131). -/
def decodeAudPull (w : Word) (payload : List Word) : Except Reject Instr :=
  if field w 24 2 ≠ 0 then .error .reservedBit else withoutPayload payload (.audPull (field w 0 24))

/-- Format S: bit 24 is zero (30_encoding R131). -/
def decodeSnapRead (w : Word) (payload : List Word) : Except Reject Instr :=
  if field w 24 1 ≠ 0 then .error .reservedBit
  else withoutPayload payload (.snapRead (PowerBuf.ofSel (field w 25 1)) (field w 0 24))

/-- The commands port P accepts (30_encoding R136). -/
def decodeP (w : Word) (payload : List Word) : Except Reject Instr :=
  match opcode w with
  | 0x01 => decodeQwriteIq w payload
  | 0x0C => decodeBare w payload .devFault
  | op => unaccepted op

/-- The commands port W accepts (30_encoding R136). -/
def decodeW (w : Word) (payload : List Word) : Except Reject Instr :=
  match opcode w with
  | 0x01 => decodeQwriteOq w payload
  | 0x02 => decodeQread w payload
  | 0x20 => decodeEngine w payload selectBufCopy
  | 0x21 => decodeEngine w payload selectWinApply
  | 0x22 => decodeEngine w payload selectFftFwd
  | 0x23 => decodeEngine w payload selectSpecPower
  | 0x24 => decodeEngine w payload selectDecimate
  | 0x25 => decodeEngine w payload selectFmDemod
  | 0x26 => decodeEngine w payload selectLpf
  | 0x30 => decodeBare w payload .seqTop
  | 0x31 => decodeBare w payload .seqWait
  | 0x32 => decodeBare w payload .seqLatch
  | 0x33 => decodeJump w payload
  | 0x34 => decodeBare w payload .seqEnd
  | op => unaccepted op

/-- The command port A accepts (30_encoding R136). -/
def decodeA (w : Word) (payload : List Word) : Except Reject Instr :=
  match opcode w with
  | 0x10 => decodeAudPull w payload
  | op => unaccepted op

/-- The command port S accepts (30_encoding R136). -/
def decodeS (w : Word) (payload : List Word) : Except Reject Instr :=
  match opcode w with
  | 0x11 => decodeSnapRead w payload
  | op => unaccepted op

/-- The commands port H accepts (30_encoding R136). -/
def decodeH (w : Word) (payload : List Word) : Except Reject Instr :=
  match opcode w with
  | 0x03 => decodeQueueSelect w payload .qavail
  | 0x04 => decodeQueueSelect w payload .qopen
  | 0x05 => decodeQueueSelect w payload .qclose
  | 0x08 => decodeBare w payload .acqStart
  | 0x09 => decodeBare w payload .acqStop
  | 0x0A => decodeCsrRead w payload
  | 0x0B => decodeCsrWrite w payload
  | op => unaccepted op

/-- A command word is decoded against the set its port accepts; total on every word of every port
(30_encoding R136, R151). -/
def decode (port : Port) (w : Word) (payload : List Word) : Except Reject Instr :=
  match port with
  | .p => decodeP w payload
  | .w => decodeW w payload
  | .a => decodeA w payload
  | .s => decodeS w payload
  | .h => decodeH w payload

/-! ### Byte serialisation (20_memory R103) -/

/-- A word as bytes, bits[7:0] at the lowest offset (20_memory R103). -/
def bytesOfWord (w : Word) : List Byte :=
  [BitVec.ofNat 8 (field w 0 8), BitVec.ofNat 8 (field w 8 8), BitVec.ofNat 8 (field w 16 8), BitVec.ofNat 8 (field w 24 8)]

def bytesOfWords : List Word → List Byte
  | [] => []
  | w :: ws => bytesOfWord w ++ bytesOfWords ws

/-- Bytes as words; none where they are not a whole number of words (20_memory R103). -/
def wordsOfBytes : List Byte → Option (List Word)
  | [] => some []
  | b0 :: b1 :: b2 :: b3 :: rest =>
    (wordsOfBytes rest).map
      (BitVec.ofNat 32 (b0.toNat + b1.toNat * 2 ^ 8 + b2.toNat * 2 ^ 16 + b3.toNat * 2 ^ 24) :: ·)
  | _ => none

/-- A command as a port that serialises words into bytes carries it: the command word, then the payload. -/
def decodeBytes (port : Port) (bytes : List Byte) : Except Reject Instr :=
  match wordsOfBytes bytes with
  | some (w :: payload) => decode port w payload
  | _ => .error .payloadLength

/-! ### The encoder -/

/-- The one port that accepts the command (30_encoding R144). -/
def Instr.port : Instr → Port
  | .qwriteIq _ => .p
  | .devFault => .p
  | .audPull _ => .a
  | .snapRead _ _ => .s
  | .qavail _ => .h
  | .qopen _ => .h
  | .qclose _ => .h
  | .acqStart => .h
  | .acqStop => .h
  | .csrRead _ => .h
  | .csrWrite _ _ => .h
  | .qwriteOq _ => .w
  | .qread _ _ => .w
  | .bufCopy _ _ _ => .w
  | .winApply _ _ => .w
  | .fftFwd _ _ => .w
  | .specPower _ _ _ => .w
  | .decimate0 _ _ _ => .w
  | .decimate1 _ => .w
  | .fmDemod _ _ => .w
  | .lpf _ => .w
  | .seqTop => .w
  | .seqWait => .w
  | .seqLatch => .w
  | .seqJshort _ => .w
  | .seqEnd => .w

/-- The OP value of the command's row (30_encoding R144). -/
def Instr.opcode : Instr → Nat
  | .qwriteIq _ => 0x01
  | .qwriteOq _ => 0x01
  | .qread _ _ => 0x02
  | .qavail _ => 0x03
  | .qopen _ => 0x04
  | .qclose _ => 0x05
  | .acqStart => 0x08
  | .acqStop => 0x09
  | .csrRead _ => 0x0A
  | .csrWrite _ _ => 0x0B
  | .devFault => 0x0C
  | .audPull _ => 0x10
  | .snapRead _ _ => 0x11
  | .bufCopy _ _ _ => 0x20
  | .winApply _ _ => 0x21
  | .fftFwd _ _ => 0x22
  | .specPower _ _ _ => 0x23
  | .decimate0 _ _ _ => 0x24
  | .decimate1 _ => 0x24
  | .fmDemod _ _ => 0x25
  | .lpf _ => 0x26
  | .seqTop => 0x30
  | .seqWait => 0x31
  | .seqLatch => 0x32
  | .seqJshort _ => 0x33
  | .seqEnd => 0x34

/-- Format E's operand bits: SRC[25:23], DST[22:20], LS[19:18], INST[17] (30_encoding R131). -/
def engineOperands (src dst : Nat) (len : Len) (inst : Nat) : Nat :=
  src * 2 ^ 23 + dst * 2 ^ 20 + len.code * 2 ^ 18 + inst * 2 ^ 17

/-- Bits 25:0 of the command word, by format (30_encoding R131). -/
def Instr.operands : Instr → Nat
  | .qwriteIq block => 1 * 2 ^ 24 + block.length
  | .qwriteOq len => 1 * 2 ^ 25 + 3 * 2 ^ 21 + len.code * 2 ^ 19
  | .qread dst len => 1 * 2 ^ 24 + dst.id * 2 ^ 21 + len.code * 2 ^ 19
  | .qavail q => q.bit * 2 ^ 25
  | .qopen q => q.bit * 2 ^ 25
  | .qclose q => q.bit * 2 ^ 25
  | .acqStart => 0
  | .acqStop => 0
  | .csrRead addr => addr.toNat
  | .csrWrite addr _ => addr.toNat
  | .devFault => 0
  | .audPull frames => frames
  | .snapRead sel count => sel.sel * 2 ^ 25 + count
  | .bufCopy src dst len => engineOperands src.id dst.id len 0
  | .winApply dst len => engineOperands 6 dst.id len 0
  | .fftFwd buf len => engineOperands buf.id buf.id len 0
  | .specPower src dst len => engineOperands src.id dst.id len 0
  | .decimate0 src dst len => engineOperands src.id dst.id len 0
  | .decimate1 len => engineOperands 3 3 len 1
  | .fmDemod src len => engineOperands src.id 3 len 0
  | .lpf len => engineOperands 3 3 len 0
  | .seqTop => 0
  | .seqWait => 0
  | .seqLatch => 0
  | .seqJshort target => target
  | .seqEnd => 0

/-- The command word. -/
def encodeWord (i : Instr) : Word := BitVec.ofNat 32 (i.opcode * 2 ^ 26 + i.operands)

/-- The payload (30_encoding R147). -/
def encodePayload : Instr → List Word
  | .qwriteIq block => wordsOfSamples block
  | .csrWrite _ value => [value]
  | .qwriteOq _ => []
  | .qread _ _ => []
  | .qavail _ => []
  | .qopen _ => []
  | .qclose _ => []
  | .acqStart => []
  | .acqStop => []
  | .csrRead _ => []
  | .devFault => []
  | .audPull _ => []
  | .snapRead _ _ => []
  | .bufCopy _ _ _ => []
  | .winApply _ _ => []
  | .fftFwd _ _ => []
  | .specPower _ _ _ => []
  | .decimate0 _ _ _ => []
  | .decimate1 _ => []
  | .fmDemod _ _ => []
  | .lpf _ => []
  | .seqTop => []
  | .seqWait => []
  | .seqLatch => []
  | .seqJshort _ => []
  | .seqEnd => []

/-- The words of a command: its command word, then its payload. -/
def encode (i : Instr) : List Word := encodeWord i :: encodePayload i

/-! ### The table's words -/

/-- How many payload words a command word fixes (30_encoding R147). -/
def payloadLength (w : Word) : Nat :=
  if opcode w = 0x01 ∧ field w 25 1 = 0 then 2 * field w 0 24
  else if opcode w = 0x0B then 1
  else 0

/-- The command word and payload words of the number `w` of `nbits` bits: bit 0 is bit 0 of the first word, later words
count on from it, bits above are 0. -/
def tableWords (nbits w : Nat) : Word × List Word :=
  let v := w % 2 ^ nbits
  let word := BitVec.ofNat 32 v
  (word, (List.range (payloadLength word)).map fun i => BitVec.ofNat 32 (v / 2 ^ (32 * (i + 1))))

/-- Whether the port accepts the command. -/
def accepts (port : Port) (w : Word) (payload : List Word) : Bool :=
  match decode port w payload with
  | .ok _ => true
  | .error _ => false

/-- The port that accepts the command: port H where none does (notes/assumptions/22.md). -/
def portOf (w : Word) (payload : List Word) : Port :=
  if accepts .p w payload then .p
  else if accepts .w w payload then .w
  else if accepts .a w payload then .a
  else if accepts .s w payload then .s
  else .h

/-- What the decoder reads from a row of spec/opcode_table.json, its words laid out little-endian (20_memory R103) on the
port that accepts them. -/
def decodeTableWord (nbits w : Nat) : Option Instr :=
  let words := tableWords nbits w
  match decodeBytes (portOf words.1 words.2) (bytesOfWords (words.1 :: words.2)) with
  | .ok i => some i
  | .error _ => none

end Sys2Proof
end

