-- ==== Sys2Proof/Machine/Float.lean ====
section
/-! DEFINITION. binary32 (00_scope R16) and the operations mul32, add32 and sub32 (R18), computed exactly on integers and
rounded once, to nearest with ties to even. A finite value is held as an integer number of units of 2^-149. -/

namespace Sys2Proof.Machine

def fSign (a : F32) : Bool := a.toNat / 2 ^ 31 == 1

/-- The biased exponent, bits[30:23] (00_scope R16). -/
def fExp (a : F32) : Nat := a.toNat / 2 ^ 23 % 2 ^ 8

/-- The fraction, bits[22:0] (00_scope R16). -/
def fFrac (a : F32) : Nat := a.toNat % 2 ^ 23

def fIsNan (a : F32) : Bool := fExp a == 255 && fFrac a != 0

def fIsInf (a : F32) : Bool := fExp a == 255 && fFrac a == 0

def fIsFinite (a : F32) : Bool := fExp a != 255

def fIsZero (a : F32) : Bool := fExp a == 0 && fFrac a == 0

/-- The magnitude of a finite value in units of 2^-149: subnormals scale with exponent 1, normals carry the hidden bit. -/
def fMag (a : F32) : Nat :=
  if fExp a = 0 then fFrac a else (2 ^ 23 + fFrac a) * 2 ^ (fExp a - 1)

/-- A finite value in units of 2^-149. -/
def fUnits (a : F32) : Int := if fSign a then -(fMag a : Int) else (fMag a : Int)

/-- Flipping the sign bit: the `-` of 00_scope R17. -/
def fNeg (a : F32) : F32 := a ^^^ 0x80000000

/-- A bit pattern from a sign and the 31 bits below it. -/
def fPack (sign : Bool) (rest : Nat) : F32 := BitVec.ofNat 32 (sign.toNat * 2 ^ 31 + rest)

def fInf (sign : Bool) : F32 := fPack sign 0x7F800000

def fZero (sign : Bool) : F32 := fPack sign 0

/-- A NaN with the given free sign and payload bits; every NaN is one of these. -/
def fNanOf (bits : Word) : F32 :=
  let frac := bits.toNat % 2 ^ 23
  fPack (fSign bits) (0x7F800000 + if frac = 0 then 1 else frac)

/-- An infinity or a NaN with the given free bits. -/
def fNonFiniteOf (bits : Word) : F32 := fPack (fSign bits) (0x7F800000 + bits.toNat % 2 ^ 23)

/-- A natural divided by 2^shift, rounded to nearest with ties to even (00_scope R18). -/
def roundShift (n shift : Nat) : Nat :=
  let q := n / 2 ^ shift
  let rest := n % 2 ^ shift * 2
  if 2 ^ shift < rest ∨ (2 ^ shift = rest ∧ q % 2 = 1) then q + 1 else q

/-- How many low bits of a magnitude in units of 2^-298 are rounded away: what leaves 24 significant bits, and at least
149, the last place of the subnormals. -/
def roundingShift (n : Nat) : Nat := max (Nat.log2 n - 23) 149

/-- The binary32 nearest to a non-zero magnitude of `n` units of 2^-298, with the given sign. The exponent field and the
fraction are one number, so a carry out of the fraction raises the exponent and an overflow reaches infinity. -/
def roundMag (sign : Bool) (n : Nat) : F32 :=
  let shift := roundingShift n
  let bits := (shift - 149) * 2 ^ 23 + roundShift n shift
  fPack sign (min bits 0x7F800000)

/-- The binary32 nearest to `v` units of 2^-298; `zeroSign` is the sign an exact zero takes. -/
def roundInt (zeroSign : Bool) (v : Int) : F32 :=
  if v = 0 then fZero zeroSign else roundMag (decide (v < 0)) v.natAbs

/-- IEEE multiply (00_scope R18). A NaN result has free sign and payload (notes/assumptions/9.md). -/
def mul32 (a b : F32) : F32 :=
  let sign := fSign a != fSign b
  if fIsNan a || fIsNan b || (fIsInf a && fIsZero b) || (fIsZero a && fIsInf b) then fNanOf (Config.nanBits .mul a b)
  else if fIsInf a || fIsInf b then fInf sign
  else roundInt sign (fUnits a * fUnits b)

/-- IEEE add of two operands that are not NaN and not opposite infinities. An exact zero sum is +0.0 unless both operands
are -0.0. -/
def addFinite (a b : F32) : F32 :=
  if fIsInf a then a
  else if fIsInf b then b
  else roundInt (fSign a && fSign b) ((fUnits a + fUnits b) * 2 ^ 149)

/-- IEEE add (00_scope R18). A NaN result has free sign and payload (notes/assumptions/9.md). -/
def add32 (a b : F32) : F32 :=
  if fIsNan a || fIsNan b || (fIsInf a && fIsInf b && fSign a != fSign b) then fNanOf (Config.nanBits .add a b)
  else addFinite a b

/-- IEEE subtract (00_scope R18). A NaN result has free sign and payload (notes/assumptions/9.md). -/
def sub32 (a b : F32) : F32 :=
  if fIsNan a || fIsNan b || (fIsInf a && fIsInf b && fSign a == fSign b) then fNanOf (Config.nanBits .sub a b)
  else addFinite a (fNeg b)

/-- The binary32 of an integer; an exact zero takes the given sign. -/
def fOfInt (zeroSign : Bool) (v : Int) : F32 := roundInt zeroSign (v * 2 ^ 298)

end Sys2Proof.Machine
end

