-- ==== Sys2Proof/Machine/Numerics.lean ====
section
/-! DEFINITION. The record NUM of 00_scope R22: what rule R23 fixes is computed, everything else is the instance's own
function, an opaque constant of Config (notes/assumptions/7.md). -/

namespace Sys2Proof.Machine

/-! ### NUM.fir -/

/-- The exact products of taps and samples in units of 2^-298. A longer list's tail is dropped: DESIGN CHOICE, and numFir
never asks for such a list (notes/assumptions/23.md). -/
def firProducts : List F32 → List F32 → List Int
  | h :: hs, w :: ws => fUnits h * fUnits w :: firProducts hs ws
  | _, _ => []

/-- Whether `v` units of 2^-298 are exactly representable in f32 and finite (00_scope R23). -/
def representable (v : Int) : Bool :=
  let r := roundInt false v
  fIsFinite r && fUnits r * 2 ^ 149 == v

/-- The sums reached by adding `p` or nothing to each of the sums, each once. -/
def addToSums (p : Int) (sums : List Int) : List Int :=
  sums.foldl (fun acc v => if acc.contains (v + p) then acc else (v + p) :: acc) sums

/-- Whether every sum of some of the products is representable, given the sums of the products before. -/
def partialSumsRepresentable : List Int → List Int → Bool
  | [], sums => sums.all representable
  | p :: ps, sums => sums.all representable && partialSumsRepresentable ps (addToSums p sums)

/-- The premise of R23's exact FIR: finite operands, and every product and every partial sum of them, taken in any order,
exactly representable. -/
def firExact (h w : List F32) : Bool :=
  h.all fIsFinite && w.all fIsFinite && partialSumsRepresentable (firProducts h w) [0]

/-- Whether every product is -0.0. -/
def allNegativeZero : List F32 → List F32 → Bool
  | h :: hs, w :: ws => (fIsZero h || fIsZero w) && (fSign h != fSign w) && allNegativeZero hs ws
  | _, _ => true

/-- The tap 1.0. -/
def fOne : F32 := 0x3F800000

/-- NUM.fir of an instance that has the property of Config.numKeepsInfinities, or not.
A NaN sample makes a NaN, which one being open (R250, R301, 92_eei_decisions D27: NaN propagates as data;
notes/assumptions/8.md).
With the property, an infinite sample makes a value that is not finite (R250), and with the one tap 1.0 that infinity
itself (R301); without it, R22 leaves the value to the instance.
R23: an exact sum is returned as it is, an exact zero as +0.0 unless every product is -0.0, where its sign is open
(notes/assumptions/14.md).
Everything else is the instance's own, lists of unequal length too, of which R22 does not speak (DESIGN CHOICE,
notes/assumptions/23.md). -/
def firWith (keepsInfinities : Bool) (h w : List F32) : F32 :=
  if h.length ≠ w.length then Config.freeFir h w
  else if w.any fIsNan then fNanOf (Config.freeFir h w)
  else if w.any fIsInf && keepsInfinities then
    if h = [fOne] then w.headD 0 else fNonFiniteOf (Config.freeFir h w)
  else if firExact h w then
    roundInt (allNegativeZero h w && fSign (Config.freeFir h w)) (firProducts h w).sum
  else Config.freeFir h w

/-- NUM.fir(h, w): taps, then samples newest first (00_scope R22). -/
def numFir (h w : List F32) : F32 := firWith Config.numKeepsInfinities h w

/-! ### NUM.dft -/

/-- Whether the value is an integer of magnitude at most 2^20 (00_scope R23). -/
def smallInteger (a : F32) : Bool :=
  fIsFinite a && fMag a % 2 ^ 149 == 0 && fMag a ≤ 2 ^ 169

/-- The integer a lane holds, where smallInteger says it is one. -/
def laneInt (a : F32) : Int := fUnits a / 2 ^ 149

/-- Multiplying an exact complex integer by (-i)^j. -/
def rotate (j : Nat) (z : Int × Int) : Int × Int :=
  match j % 4 with
  | 0 => z
  | 1 => (z.2, -z.1)
  | 2 => (-z.1, -z.2)
  | _ => (-z.2, z.1)

/-- sum_t x[t] * e^(-2 pi i k t / n) for n = 2 or 4, whose kernel is (-i)^((4/n) k t) (43_spectrum R266). -/
def exactBin (x : List C32) (k : Nat) : Int × Int :=
  let terms := x.mapIdx fun t z => rotate (4 / x.length * k * t) (laneInt z.re, laneInt z.im)
  ((terms.map Prod.fst).sum, (terms.map Prod.snd).sum)

/-- The premise of R23's exact DFT, for the supported sizes up to 4. -/
def dftExact (x : List C32) : Bool :=
  (x.length == 2 || x.length == 4) && x.all fun z => smallInteger z.re && smallInteger z.im

/-- NUM.dft(x): a list as long as `x` (00_scope R22); exact where R23 says so, "with every exact zero lane returned as +0.0
or -0.0 (either)", so the sign of a zero lane is the instance's own. -/
def numDft (x : List C32) : List C32 :=
  (List.range x.length).map fun k =>
    let own := Config.freeDft x k
    if dftExact x then
      let z := exactBin x k
      ⟨fOfInt (fSign own.re) z.1, fOfInt (fSign own.im) z.2⟩
    else own

/-! ### NUM.db -/

/-- The k of 0 to 10 with p = 10^k, the arguments R23 gives exact decibels. -/
def powerOfTen (p : F32) : Option Nat := (List.range 11).find? fun k => p == fOfInt false (10 ^ k)

/-- NUM.db(p), approximating 10 log10 p (00_scope R22, R23); db(1) is taken as +0.0 (DEDUCED, notes/assumptions/16.md). -/
def numDb (p : F32) : F32 :=
  if fIsZero p then fInf true
  else if fIsNan p || fSign p then fNanOf (Config.freeDb p)
  else if fIsInf p then fInf false
  else match powerOfTen p with
    | some k => fOfInt false (10 * k)
    | none => Config.freeDb p

/-! ### NUM.phase -/

/-- The exact product x * conj(y) of finite samples, in units of 2^-298. -/
def conjProduct (x y : C32) : Int × Int :=
  (fUnits x.re * fUnits y.re + fUnits x.im * fUnits y.im,
   fUnits x.im * fUnits y.re - fUnits x.re * fUnits y.im)

/-- NUM.phase(x, y), approximating arg(x * conj(y)) in (-pi, pi] (00_scope R22); R23 fixes the axes and NaN lanes, and
places no constraint on an infinite lane (44_fm_audio R294). -/
def numPhase (x y : C32) : F32 :=
  if fIsNan x.re || fIsNan x.im || fIsNan y.re || fIsNan y.im then fNanOf (Config.freePhase x y)
  else if fIsInf x.re || fIsInf x.im || fIsInf y.re || fIsInf y.im then Config.freePhase x y
  else
    let z := conjProduct x y
    if z.2 = 0 then (if z.1 < 0 then 0x40490FDB else 0x00000000)
    else if z.1 = 0 then (if z.2 < 0 then 0xBFC90FDB else 0x3FC90FDB)
    else Config.freePhase x y

/-! ### NUM.offset and NUM.window -/

/-- The rational num/den in lowest terms. -/
def ratioOf (num den : Nat) : Ratio := ⟨num / Nat.gcd num den, den / Nat.gcd num den⟩

/-- The k of 0 to 10 with r = 10^k, the rationals R23 gives an exact offset. -/
def ratioPowerOfTen (r : Ratio) : Option Nat := (List.range 11).find? fun k => r == ⟨10 ^ k, 1⟩

/-- NUM.offset of an instance that has the property of Config.numKeepsInfinities, or not. Where R23 fixes no value, a NaN G
or u gives a NaN (46_control R336, 92_eei_decisions D27), and with the property an infinite one a value that is not finite
(R336), which one being open (notes/assumptions/24.md). -/
def offsetWith (keepsInfinities : Bool) (g : F32) (r : Ratio) (u : F32) : F32 :=
  match ratioPowerOfTen r with
  | some k => add32 (sub32 g (fOfInt false (10 * k))) u
  | none =>
    if fIsNan g || fIsNan u then fNanOf (Config.freeOffset g r u)
    else if (fIsInf g || fIsInf u) && keepsInfinities then fNonFiniteOf (Config.freeOffset g r u)
    else Config.freeOffset g r u

/-- NUM.offset(G, r, u), approximating G - 10 log10 r + u (00_scope R22, R23). -/
def numOffset (g : F32) (r : Ratio) (u : F32) : F32 := offsetWith Config.numKeepsInfinities g r u

/-- NUM.window(n, N) = WINDOW_FN(n, N) (00_scope R23). -/
def numWindow (n len : Nat) : F32 := Config.windowFn n len

end Sys2Proof.Machine
end

