-- ==== Sys2Proof/Machine/Rom.lean ====
section
/-! DEFINITION. The microprogram of the DSP Worker sequencer (41_worker R229). -/

namespace Sys2Proof.Machine

/-- The seventeen words of 41_worker R229, address 0 first; "fixed for every instance; no command writes it". -/
def microprogram : List Word :=
  [ 0xC0000000   --  0 SEQ_TOP
  , 0xC4000000   --  1 SEQ_WAIT
  , 0x09000000   --  2 QREAD IQ, WB, N
  , 0xCC000000   --  3 SEQ_JSHORT 0
  , 0xC8000000   --  4 SEQ_LATCH
  , 0x80100000   --  5 BUF_COPY WB, DB, N
  , 0x87000000   --  6 WIN_APPLY WIN, WB, N
  , 0x88000000   --  7 FFT_FWD WB, WB, N
  , 0x8C400000   --  8 SPEC_POWER WB, PW_WB, N
  , 0x90A00000   --  9 DECIMATE.0 DB, NB, N
  , 0x95340000   -- 10 FM_DEMOD NB, AU, M
  , 0x99B40000   -- 11 LPF AU, AU, M
  , 0x91B60000   -- 12 DECIMATE.1 AU, AU, M
  , 0x06700000   -- 13 QWRITE OQ, AU, K
  , 0x89240000   -- 14 FFT_FWD NB, NB, M
  , 0x8D540000   -- 15 SPEC_POWER NB, PW_NB, M
  , 0xD0000000 ] -- 16 SEQ_END

end Sys2Proof.Machine
end

