-- ==== Sys2Proof/Machine/State.lean ====
section
/-! DEFINITION. The architectural state of the block (10_state), the reasons a step can stop, and the state after reset. -/

namespace Sys2Proof.Machine

/-- A storage as (element index, value) pairs in one canonical form (Memory.wf): indexes strictly rising. An index that
is not listed holds no value (10_state R45, R64, R90; notes/assumptions/6.md). -/
abbrev Memory (α : Type) := List (Nat × α)

/-- The canonical form of a storage: two storages with the same elements are the same list. -/
abbrev Memory.wf {α : Type} (m : Memory α) : Prop := (m.map Prod.fst).Pairwise (· < ·)

/-- A Sample Queue (10_state R42) with its two cross-side views (R48). Its capacity is the build parameter (R43). -/
structure Queue (α : Type) where
  buf    : Memory α
  wr     : Nat
  rd     : Nat
  avail  : Nat
  isOpen : Bool
  /-- the consumer's view of the available-count -/
  cv     : Nat
  /-- the producer's view of the free space -/
  pv     : Nat
  deriving DecidableEq, Repr

/-- The session state (10_state R75). -/
inductive SessionState
  | stopped
  | running
  | stopping
  deriving DecidableEq, Repr

/-- The worker state (10_state R81). -/
inductive WorkerState
  | off
  | active
  | exited
  deriving DecidableEq, Repr

/-- A Decimator instance's state while present (10_state R77): history newest first, and the phase. -/
structure DecState (α : Type) where
  hist  : List α
  phase : Nat
  deriving DecidableEq, Repr

/-- The sticky error bits of STATUS, bits 8 to 14 (10_state R53). -/
inductive StickyBit
  | qfullIn
  | qfullOut
  | underrun
  | devfault
  | config
  | illegal
  | addr
  deriving DecidableEq, Repr

/-- The values of the sticky error bits (10_state R53). -/
structure Sticky where
  qfullIn  : Bool
  qfullOut : Bool
  underrun : Bool
  devfault : Bool
  config   : Bool
  illegal  : Bool
  addr     : Bool
  deriving DecidableEq, Repr

/-- The stored control and status registers (10_state R50); the others are computed when read. -/
structure Csrs where
  winEn        : Bool
  sticky       : Sticky
  cfgCause     : BitVec 4
  nFft         : Word
  decD         : Word
  audD2        : Word
  inRate       : Word
  audioBufMs   : Word
  gainConst    : F32
  userOffset   : F32
  specScale    : F32
  dispRange    : F32
  wbOffset     : F32
  nbOffset     : F32
  cntQfullIn   : Word
  cntDropIn    : Word
  cntQfullOut  : Word
  cntDropOut   : Word
  cntUnderrun  : Word
  cntCycles    : Word
  deriving DecidableEq, Repr

/-- The buffers (10_state R60) with the hidden state that says what was written (R62, R63). -/
structure Buffers where
  wb        : Memory C32
  db        : Memory C32
  nb        : Memory C32
  au        : Memory F32
  pwWb      : Memory F32
  pwNb      : Memory F32
  win       : Memory F32
  winLen    : Nat
  wbValid   : Bool
  nbValid   : Bool
  lastLenWb : Nat
  lastLenNb : Nat
  /-- the model's own: how often WB, DB, NB and AU have lost their contents (notes/assumptions/19.md) -/
  epoch     : Nat
  deriving DecidableEq, Repr

/-- The Decimators, the audio low-pass filter and the demodulator (10_state R77 to R79); none is ABSENT. -/
structure Filters where
  dec0 : Option (DecState C32)
  dec1 : Option (DecState F32)
  /-- the filter's history, newest first -/
  lpf  : Option (List F32)
  /-- the last sample demodulated -/
  fm   : Option C32
  deriving DecidableEq, Repr

/-- The worker sequencer (10_state R80 to R83). -/
structure Sequencer where
  wstate : WorkerState
  upc    : Nat
  short  : Bool
  latWin : Bool
  latUo  : F32
  deriving DecidableEq, Repr

/-- The session state, the stop signal and the latched session parameters (10_state R75, R76, R84). -/
structure Session where
  sess    : SessionState
  stopReq : Bool
  sN      : Nat
  sD      : Nat
  sD2     : Nat
  sM      : Nat
  sK      : Nat
  deriving DecidableEq, Repr

/-- The response a command gave on its port: the response word, then the data words (30_encoding R160). -/
structure Reply where
  port : Port
  word : Word
  data : List Word
  deriving DecidableEq, Repr

/-- One turn of one agent (00_scope R9): what the model's schedule is made of (notes/assumptions/2.md). -/
inductive Event
  /-- An external agent issues a command word with its payload on its port. -/
  | command (port : ExtPort) (word : Word) (payload : List Word)
  /-- The worker W takes its step. -/
  | worker
  /-- The control unit C takes its step. -/
  | control
  /-- The synchroniser Y takes its step on a queue, choosing these views (20_memory R112). -/
  | sync (queue : QueueSel) (cv pv : Nat)
  deriving DecidableEq, Repr

/-- The whole state of the block, the parameters of its instance, and the model's own schedule and response record. -/
structure State where
  /-- the build parameters (00_scope R12); no step writes them -/
  cfg     : Params
  csr     : Csrs
  iq      : Queue C32
  oq      : Queue F32
  buf     : Buffers
  dsp     : Filters
  seq     : Sequencer
  ses     : Session
  /-- the microprogram ROM (20_memory R100, R117); no step writes it -/
  rom     : List Word
  /-- the model's own: the turns to come, next first (notes/assumptions/2.md) -/
  sched   : List Event
  /-- the model's own: the responses given, newest first (notes/assumptions/4.md) -/
  replies : List Reply
  deriving DecidableEq, Repr

/-- Why the machine stops. -/
inductive Fault
  /-- DECIMATE, FM_DEMOD or LPF while the state it updates is ABSENT, naming the micro-address: 41_worker R226 calls it "a fault
  of the model". Raised by execDecimate0, execDecimate1, execFmDemod and execLpf. Safe: the spec gives it no meaning. -/
  | useAfterTeardown (upc : Nat)
  /-- The worker fetches at a micro-address where the ROM holds no word (10_state R80 keeps upc below 17). Raised by the worker's
  fetch. Safe: the spec gives it no meaning (notes/assumptions/12.md). -/
  | romAddress (upc : Nat)
  deriving DecidableEq, Repr

/-- Why the model gives no meaning. -/
inductive Refusal
  /-- An instruction exec has no meaning for yet, by its mnemonic. Raised by exec's arm. Safe: the model stops. -/
  | notModelled (mnemonic : String)
  deriving DecidableEq, Repr

/-- The destroyed form of a queue (10_state R46, R48) around the storage it leaves. -/
def Queue.destroyed {α : Type} (cap : Nat) (buf : Memory α) : Queue α where
  buf    := buf
  wr     := 0
  rd     := 0
  avail  := 0
  isOpen := false
  cv     := 0
  pv     := cap

/-- The reset column of 10_state R50. -/
def Csrs.reset : Csrs where
  winEn        := false
  sticky       := ⟨false, false, false, false, false, false, false⟩
  cfgCause     := 0
  nFft         := 0x00004000
  decD         := 0x00000008
  audD2        := 0x00000004
  inRate       := 0x00000000
  audioBufMs   := 0x00000064
  gainConst    := 0x41C00000
  userOffset   := 0x00000000
  specScale    := 0x3F800000
  dispRange    := 0x00000000
  wbOffset     := 0x00000000
  nbOffset     := 0x00000000
  cntQfullIn   := 0
  cntDropIn    := 0
  cntQfullOut  := 0
  cntDropOut   := 0
  cntUnderrun  := 0
  cntCycles    := 0

/-- The reset state of the instance with parameters `cfg` (10_state R90, 70_reset R410). -/
def State.resetOf (cfg : Params) : State where
  cfg     := cfg
  csr     := Csrs.reset
  iq      := Queue.destroyed cfg.capIn []
  oq      := Queue.destroyed cfg.capOut []
  buf     := ⟨[], [], [], [], [], [], [], 0, false, false, 0, 0, 0⟩
  dsp     := ⟨none, none, none, none⟩
  seq     := ⟨.off, 0, false, false, 0x00000000⟩
  ses     := ⟨.stopped, false, 0, 0, 0, 0, 0⟩
  rom     := microprogram
  sched   := []
  replies := []

/-- The machine right after reset, for the reference instance (notes/assumptions/1.md). -/
def State.reset : State := State.resetOf Params.reference

end Sys2Proof.Machine
end

