-- ==== Sys2Proof/Machine/Update.lean ====
section
/-! DEFINITION. One named update per component of State; every other file changes the state through these. -/

namespace Sys2Proof.Machine

def State.setCsr (s : State) (c : Csrs) : State := { s with csr := c }

def State.setIq (s : State) (q : Queue C32) : State := { s with iq := q }

def State.setOq (s : State) (q : Queue F32) : State := { s with oq := q }

def State.setBuf (s : State) (b : Buffers) : State := { s with buf := b }

def State.setDsp (s : State) (d : Filters) : State := { s with dsp := d }

def State.setSeq (s : State) (q : Sequencer) : State := { s with seq := q }

def State.setSes (s : State) (x : Session) : State := { s with ses := x }

def State.setRom (s : State) (r : List Word) : State := { s with rom := r }

def State.setSched (s : State) (e : List Event) : State := { s with sched := e }

/-- One more response given (30_encoding R160). -/
def State.addReply (s : State) (r : Reply) : State := { s with replies := r :: s.replies }

end Sys2Proof.Machine
end

