-- ==== Sys2Proof/Machine/Flags.lean ====
section
/-! DEFINITION. STATUS: its sticky bits, its cause field and its assembly (10_state R53, 46_control R351), and the event
counters (10_state R70). -/

namespace Sys2Proof.Machine

/-- Setting one sticky bit; an error whose bit is already set leaves it set (60_exceptions R388). -/
def Sticky.set (k : Sticky) : StickyBit → Sticky
  | .qfullIn => { k with qfullIn := true }
  | .qfullOut => { k with qfullOut := true }
  | .underrun => { k with underrun := true }
  | .devfault => { k with devfault := true }
  | .config => { k with config := true }
  | .illegal => { k with illegal := true }
  | .addr => { k with addr := true }

/-- Writing 1 to bit i of 8 to 14 clears it; every other bit of `v` changes nothing (10_state R53). -/
def Sticky.clearBy (k : Sticky) (v : Word) : Sticky where
  qfullIn  := k.qfullIn && !v.getLsbD 8
  qfullOut := k.qfullOut && !v.getLsbD 9
  underrun := k.underrun && !v.getLsbD 10
  devfault := k.devfault && !v.getLsbD 11
  config   := k.config && !v.getLsbD 12
  illegal  := k.illegal && !v.getLsbD 13
  addr     := k.addr && !v.getLsbD 14

/-- Setting a sticky bit of STATUS. -/
def State.setSticky (s : State) (b : StickyBit) : State :=
  s.setCsr { s.csr with sticky := s.csr.sticky.set b }

/-- A ConfigurationError's record: ERR_CONFIG and its cause; a later one overwrites the cause (46_control R334). -/
def State.setConfigError (s : State) (cause : BitVec 4) : State :=
  s.setCsr { s.csr with sticky := s.csr.sticky.set .config, cfgCause := cause }

/-- A write of `v` to STATUS: CFG_CAUSE is cleared with bit 12 (10_state R53, 46_control R355). -/
def State.clearStatus (s : State) (v : Word) : State :=
  s.setCsr { s.csr with
    sticky := s.csr.sticky.clearBy v
    cfgCause := if v.getLsbD 12 then 0 else s.csr.cfgCause }

/-- RUNNING = (sess != STOPPED) (46_control R351). -/
def State.isRunning (s : State) : Bool := s.ses.sess != .stopped

/-- STATUS as read: bits 0 to 6 from the state, 8 to 14 sticky, 19:16 CFG_CAUSE, the others 0
(10_state R53, 46_control R351). -/
def statusWord (s : State) : Word :=
  BitVec.ofNat 32
    ( s.isRunning.toNat * 2 ^ 0
    + (s.ses.sess == .stopping).toNat * 2 ^ 1
    + (s.seq.wstate == .active).toNat * 2 ^ 2
    + s.iq.isOpen.toNat * 2 ^ 3
    + s.oq.isOpen.toNat * 2 ^ 4
    + s.buf.wbValid.toNat * 2 ^ 5
    + s.buf.nbValid.toNat * 2 ^ 6
    + s.csr.sticky.qfullIn.toNat * 2 ^ 8
    + s.csr.sticky.qfullOut.toNat * 2 ^ 9
    + s.csr.sticky.underrun.toNat * 2 ^ 10
    + s.csr.sticky.devfault.toNat * 2 ^ 11
    + s.csr.sticky.config.toNat * 2 ^ 12
    + s.csr.sticky.illegal.toNat * 2 ^ 13
    + s.csr.sticky.addr.toNat * 2 ^ 14
    + s.csr.cfgCause.toNat * 2 ^ 16 )

/-- A QFULL at IQ that dropped `n` samples: both counters wrap modulo 2^32 (40_queue R176, 10_state R70). -/
def State.countDropIn (s : State) (n : Nat) : State :=
  s.setCsr { s.csr with
    cntQfullIn := s.csr.cntQfullIn + 1
    cntDropIn := s.csr.cntDropIn + BitVec.ofNat 32 n
    sticky := s.csr.sticky.set .qfullIn }

/-- A QFULL at OQ that dropped `n` samples (40_queue R177, 10_state R70). -/
def State.countDropOut (s : State) (n : Nat) : State :=
  s.setCsr { s.csr with
    cntQfullOut := s.csr.cntQfullOut + 1
    cntDropOut := s.csr.cntDropOut + BitVec.ofNat 32 n
    sticky := s.csr.sticky.set .qfullOut }

/-- An underrun (45_ports R313). -/
def State.countUnderrun (s : State) : State :=
  s.setCsr { s.csr with
    cntUnderrun := s.csr.cntUnderrun + 1
    sticky := s.csr.sticky.set .underrun }

/-- A completed cycle (41_worker R224). -/
def State.countCycle (s : State) : State :=
  s.setCsr { s.csr with cntCycles := s.csr.cntCycles + 1 }

end Sys2Proof.Machine
end

