-- ==== Sys2Proof/Machine/Ops.lean ====
section
/-! DEFINITION. The operations every command shares: storage reads and writes, responses and `raise`, the illegal command,
the worker's abandoned cycle, the queue primitives QueueWrite and QueueRead, the views, and the stop sequence with its
completion. -/

namespace Sys2Proof.Machine

/-- What a step answers. -/
abbrev Result := Host.Outcome State Fault Refusal

/-! ### Storage (20_memory R101) -/

/-- The value an element holds, none where it holds no value. -/
def Memory.read {α : Type} : Memory α → Nat → Option α
  | [], _ => none
  | (k, v) :: rest, i => if k = i then some v else Memory.read rest i

/-- Values as (index, value) pairs from index `i` on. -/
def cellsFrom {α : Type} (i : Nat) : List α → Memory α
  | [] => []
  | v :: vs => (i, v) :: cellsFrom (i + 1) vs

/-- MemWrite(b, i, vs): the elements i to i + len(vs) - 1 are replaced, every other one is kept (20_memory R101). -/
def Memory.writeBlock {α : Type} (m : Memory α) (i : Nat) (vs : List α) : Memory α :=
  m.filter (fun c => c.1 < i) ++ cellsFrom i vs ++ m.filter (fun c => i + vs.length ≤ c.1)

def Memory.write {α : Type} (m : Memory α) (i : Nat) (v : α) : Memory α := m.writeBlock i [v]

/-- MemRead(b, i, n): the elements i to i + n - 1; one that holds no value reads as the free value `free`
(20_memory R101; notes/assumptions/6.md). -/
def Memory.readBlock {α : Type} (free : Nat → α) (m : Memory α) (i n : Nat) : List α :=
  (List.range n).map fun k => (m.read (i + k)).getD (free (i + k))

/-- WB, DB, NB and AU without the values of the cycle they were written in: they "hold no value until the worker writes them
in a cycle" (10_state R64), so from here on an element reads as a free value of its own (notes/assumptions/19.md). -/
def Buffers.forgetWork (b : Buffers) : Buffers :=
  { b with wb := [], db := [], nb := [], au := [], epoch := b.epoch + 1 }

/-- The working buffers lose their contents where a cycle begins or ends, and with the session (10_state R64). -/
def State.forgetWork (s : State) : State := s.setBuf s.buf.forgetWork

/-! ### Responses (30_encoding R160, R161) -/

/-- The status codes of 30_encoding R161. -/
inductive Status
  | ok
  | qfull
  | closed
  | underrun
  | configError
  | deviceFault
  | busy
  | illegal
  | addrError
  | notReady
  deriving DecidableEq, Repr

def Status.code : Status → Nat
  | .ok => 0
  | .qfull => 1
  | .closed => 2
  | .underrun => 3
  | .configError => 4
  | .deviceFault => 5
  | .busy => 6
  | .illegal => 7
  | .addrError => 8
  | .notReady => 9

/-- STATUS[31:28] ++ 0[27:24] ++ COUNT[23:0] (30_encoding R160). -/
def responseWord (st : Status) (count : Nat) : Word := BitVec.ofNat 32 (st.code * 2 ^ 28 + count % 2 ^ 24)

/-- respond(status, count, data) on a port (00_scope R20, 30_encoding R160). -/
def State.respond (s : State) (port : Port) (st : Status) (count : Nat) (data : List Word) : State :=
  s.addReply ⟨port, responseWord st count, data⟩

/-- raise: the command ends with its status, count 0 and no data (60_exceptions R371). -/
def raise (port : Port) (st : Status) (s : State) : Result := .next (s.respond port st 0 [])

/-- An illegal command: nothing changes but ERR_ILLEGAL, and the response is ILLEGAL (60_exceptions R372). -/
def illegal (port : Port) (s : State) : Result := raise port .illegal (s.setSticky .illegal)

/-- A refused CSR or snapshot address: nothing changes but ERR_ADDR (46_control R352, 45_ports R321). -/
def addrError (port : Port) (s : State) : Result := raise port .addrError (s.setSticky .addr)

/-! ### The worker's advance and its abandoned cycle -/

/-- upc <- target (00_scope R20). -/
def State.setUpc (s : State) (target : Nat) : State := s.setSeq { s.seq with upc := target }

/-- upc <- upc + 1, what a micro-operation does that does not set it (41_worker R201). -/
def State.advance (s : State) : State := s.setUpc (s.seq.upc + 1)

/-- A micro-operation's end: the advance and the response to the worker itself (30_encoding R160). -/
def workerDone (st : Status) (count : Nat) (s : State) : Result := .next (s.advance.respond .w st count [])

/-- CONFIG_ERROR of a micro-operation: ERR_CONFIG, the cause, and the cycle abandoned (41_worker R202). -/
def abandonCycle (cause : BitVec 4) (s : State) : Result :=
  raise .w .configError ((s.setConfigError cause).setUpc 0)

/-- Use after teardown: the model's fault, naming the micro-address (41_worker R226). -/
def useAfterTeardown (s : State) : Result := .fault (.useAfterTeardown s.seq.upc)

/-! ### QueueWrite and QueueRead (40_queue R172, R181) -/

/-- The samples stored one by one from the write cursor on, each at its index modulo the capacity (40_queue R172). -/
def ringWrite {α : Type} (cap : Nat) (m : Memory α) (at_ : Nat) : List α → Memory α
  | [] => m
  | x :: xs => ringWrite cap (m.write (at_ % cap) x) (at_ + 1) xs

/-- The `r` samples from the read cursor on (40_queue R181). -/
def ringRead {α : Type} (free : Nat → α) (cap : Nat) (m : Memory α) (at_ r : Nat) : List α :=
  (List.range r).map fun i => (m.read ((at_ + i) % cap)).getD (free ((at_ + i) % cap))

/-- What QueueWrite returns, and the queue it leaves. -/
structure WriteResult (α : Type) where
  status   : Status
  accepted : Nat
  queue    : Queue α

/-- QueueWrite(q, data) (40_queue R172 to R174). -/
def queueWrite {α : Type} (view : QueueView) (cap : Nat) (q : Queue α) (data : List α) : WriteResult α :=
  if q.isOpen then
    let a := min data.length q.pv
    let avail := q.avail + a
    { status := if a < data.length then .qfull else .ok
      accepted := a
      queue := { q with
        buf := ringWrite cap q.buf q.wr (data.take a)
        wr := (q.wr + a) % cap
        avail := avail
        pv := q.pv - a
        cv := if view = .exact then avail else q.cv } }
  else { status := .closed, accepted := 0, queue := q }

/-- What QueueRead returns, and the queue it leaves. -/
structure ReadResult (α : Type) where
  status : Status
  out    : List α
  queue  : Queue α

/-- QueueRead(q, max) (40_queue R181, R182). -/
def queueRead {α : Type} (free : Nat → α) (view : QueueView) (cap : Nat) (q : Queue α) (max : Nat) : ReadResult α :=
  if q.isOpen then
    let r := min max q.cv
    let avail := q.avail - r
    { status := .ok
      out := ringRead free cap q.buf q.rd r
      queue := { q with
        rd := (q.rd + r) % cap
        avail := avail
        cv := q.cv - r
        pv := if view = .exact then cap - avail else q.pv } }
  else { status := .closed, out := [], queue := q }

/-- The samples a queue holds, oldest first (10_state R45). -/
def Queue.items {α : Type} (free : Nat → α) (cap : Nat) (q : Queue α) : List α := ringRead free cap q.buf q.rd q.avail

/-- A queue as a session starts with it: open and empty, its views exact (46_control R330). -/
def Queue.created {α : Type} (cap : Nat) (q : Queue α) : Queue α :=
  { q with wr := 0, rd := 0, avail := 0, isOpen := true, cv := 0, pv := cap }

/-- QueueWrite on IQ. -/
def State.writeIq (s : State) (data : List C32) : WriteResult C32 := queueWrite s.cfg.queueView s.cfg.capIn s.iq data

/-- QueueRead on IQ. -/
def State.readIq (s : State) (max : Nat) : ReadResult C32 :=
  queueRead (Config.unwrittenComplex .iq) s.cfg.queueView s.cfg.capIn s.iq max

/-- QueueWrite on OQ. -/
def State.writeOq (s : State) (data : List F32) : WriteResult F32 := queueWrite s.cfg.queueView s.cfg.capOut s.oq data

/-- QueueRead on OQ. -/
def State.readOq (s : State) (max : Nat) : ReadResult F32 :=
  queueRead (Config.unwrittenReal .oq) s.cfg.queueView s.cfg.capOut s.oq max

/-- The samples IQ holds, oldest first. -/
def State.iqItems (s : State) : List C32 := s.iq.items (Config.unwrittenComplex .iq) s.cfg.capIn

/-- The samples OQ holds, oldest first. -/
def State.oqItems (s : State) : List F32 := s.oq.items (Config.unwrittenReal .oq) s.cfg.capOut

/-! ### The views (20_memory R112) -/

/-- Whether a view of the queue lags, so that Y has a step on it when the views are conservative. -/
def viewLags {α : Type} (cap : Nat) (q : Queue α) : Bool := q.cv < q.avail || q.pv < cap - q.avail

/-- Whether Y may choose these views: neither goes back, neither passes the truth, and one strictly increases. -/
def viewsAllowed {α : Type} (cap : Nat) (q : Queue α) (cv pv : Nat) : Bool :=
  q.cv ≤ cv && cv ≤ q.avail && q.pv ≤ pv && pv ≤ cap - q.avail && (q.cv < cv || q.pv < pv)

/-- A step of Y on the queue (20_memory R112). -/
def Queue.sync {α : Type} (view : QueueView) (cap : Nat) (q : Queue α) (cv pv : Nat) : Queue α :=
  if view = .conservative ∧ viewsAllowed cap q cv pv then { q with cv := cv, pv := pv } else q

/-! ### The stop sequence and its completion -/

/-- The stop sequence a running session begins, the block's nearest thing to a trap entry (46_control R340, R360;
60_exceptions R386). Outside RUNNING it changes nothing. -/
def State.beginStop (s : State) : State :=
  if s.ses.sess = .running then
    ((s.setIq { s.iq with isOpen := false }).setOq { s.oq with isOpen := false }).setSes
      { s.ses with stopReq := true, sess := .stopping }
  else s

/-- The stop completion is enabled exactly when sess = STOPPING and wstate = EXITED (46_control R346). -/
def stopEnabled (s : State) : Bool := s.ses.sess == .stopping && s.seq.wstate == .exited

/-- The stop completion's effect (46_control R346; the working buffers by 10_state R64). -/
def State.stopComplete (s : State) : State :=
  ((((s.forgetWork.setIq (Queue.destroyed s.cfg.capIn s.iq.buf)).setOq (Queue.destroyed s.cfg.capOut s.oq.buf)).setDsp
    ⟨none, none, none, none⟩).setSes { s.ses with stopReq := false, sess := .stopped }).setSeq
    { s.seq with short := false, upc := 0, wstate := .off }

end Sys2Proof.Machine
end

