-- ==== Sys2Proof/Machine/Operands.lean ====
section
/-! DEFINITION. Every operand form: session lengths, buffers by id, queues by selector. -/

namespace Sys2Proof.Machine

/-- len(LS) (30_encoding R139). -/
def State.len (s : State) : Len → Nat
  | .n => s.ses.sN
  | .m => s.ses.sM
  | .k => s.ses.sK

/-- A micro-operation whose length exceeds NMAX is refused before any access (30_encoding R146; as an illegal command,
notes/assumptions/10.md); otherwise it runs with its length. -/
def withLen (len : Len) (s : State) (run : Nat → Result) : Result :=
  if s.cfg.nmax < s.len len then illegal .w s else run (s.len len)

/-- The storage a c32 buffer id names. -/
def cbufStorage : CBuf → Storage
  | .wb => .wb
  | .db => .db
  | .nb => .nb

/-- The c32 buffer an id names (10_state R60). -/
def State.cbuf (s : State) : CBuf → Memory C32
  | .wb => s.buf.wb
  | .db => s.buf.db
  | .nb => s.buf.nb

def State.setCbuf (s : State) (b : CBuf) (m : Memory C32) : State :=
  match b with
  | .wb => s.setBuf { s.buf with wb := m }
  | .db => s.setBuf { s.buf with db := m }
  | .nb => s.setBuf { s.buf with nb := m }

/-- MemRead of a c32 buffer from element 0. -/
def State.readC (s : State) (b : CBuf) (n : Nat) : List C32 :=
  (s.cbuf b).readBlock (Config.workComplex (cbufStorage b) s.buf.epoch) 0 n

/-- MemWrite of a c32 buffer from element 0. -/
def State.writeC (s : State) (b : CBuf) (vs : List C32) : State := s.setCbuf b ((s.cbuf b).writeBlock 0 vs)

/-- MemRead of AU from element 0. -/
def State.readAu (s : State) (n : Nat) : List F32 := s.buf.au.readBlock (Config.workReal s.buf.epoch) 0 n

/-- MemWrite of AU from element 0. -/
def State.writeAu (s : State) (vs : List F32) : State := s.setBuf { s.buf with au := s.buf.au.writeBlock 0 vs }

/-- The window coefficients from element 0. -/
def State.readWin (s : State) (n : Nat) : List F32 := s.buf.win.readBlock (Config.unwrittenReal .win) 0 n

/-- A Power Spectrum Buffer's bins from element 0 (45_ports R318). -/
def State.readPower (s : State) (p : PowerBuf) (n : Nat) : List F32 :=
  match p with
  | .wide => s.buf.pwWb.readBlock (Config.unwrittenReal .pwWb) 0 n
  | .narrow => s.buf.pwNb.readBlock (Config.unwrittenReal .pwNb) 0 n

/-- One commit: all bins, the committed length and the valid flag (43_spectrum R270, R272). -/
def State.commitPower (s : State) (p : PowerBuf) (bins : List F32) (n : Nat) : State :=
  match p with
  | .wide => s.setBuf { s.buf with pwWb := s.buf.pwWb.writeBlock 0 bins, lastLenWb := n, wbValid := true }
  | .narrow => s.setBuf { s.buf with pwNb := s.buf.pwNb.writeBlock 0 bins, lastLenNb := n, nbValid := true }

/-- wb_valid or nb_valid (10_state R62). -/
def State.powerValid (s : State) : PowerBuf → Bool
  | .wide => s.buf.wbValid
  | .narrow => s.buf.nbValid

/-- last_len_wb or last_len_nb (10_state R62). -/
def State.powerLen (s : State) : PowerBuf → Nat
  | .wide => s.buf.lastLenWb
  | .narrow => s.buf.lastLenNb

/-- The branch's latched offset (43_spectrum R273). -/
def State.powerOffset (s : State) : PowerBuf → F32
  | .wide => s.csr.wbOffset
  | .narrow => s.csr.nbOffset

/-- A queue's available-count (40_queue R185). -/
def State.queueAvail (s : State) : QueueSel → Nat
  | .iq => s.iq.avail
  | .oq => s.oq.avail

/-- q.open <- v; contents, cursors and views do not change (40_queue R188, R191). -/
def State.setOpen (s : State) (q : QueueSel) (v : Bool) : State :=
  match q with
  | .iq => s.setIq { s.iq with isOpen := v }
  | .oq => s.setOq { s.oq with isOpen := v }

end Sys2Proof.Machine
end

