-- ==== Sys2Proof/Machine/Signal.lean ====
section
/-! DEFINITION. The signal functions of the engines: the Decimator, the audio filter, the demodulator, the window and the
power conversion. -/

namespace Sys2Proof.Machine

/-- FIR on real samples (42_decimator R241). -/
def firReal (h w : List F32) : F32 := numFir h w

/-- FIR on complex samples: the same real taps on each lane (42_decimator R241). -/
def firComplex (h : List F32) (w : List C32) : C32 := ⟨numFir h (w.map C32.re), numFir h (w.map C32.im)⟩

/-- Dec(inst, xs) with filter `fir` of `taps` taps and factor `factor` (42_decimator R241): the outputs and the state left. -/
def decimate {α : Type} (fir : List α → α) (taps factor : Nat) : DecState α → List α → List α × DecState α
  | st, [] => ([], st)
  | st, x :: xs =>
    let w := x :: st.hist
    let hist := w.take (taps - 1)
    if st.phase + 1 = factor then
      let r := decimate fir taps factor ⟨hist, 0⟩ xs
      (fir w :: r.1, r.2)
    else decimate fir taps factor ⟨hist, st.phase + 1⟩ xs

/-- Dec(0, xs) of the instance and session (42_decimator R241). -/
def State.dec0Run (s : State) (st : DecState C32) (xs : List C32) : List C32 × DecState C32 :=
  decimate (firComplex s.cfg.h0) s.cfg.h0.length s.ses.sD st xs

/-- Dec(1, xs) of the instance and session (42_decimator R241). -/
def State.dec1Run (s : State) (st : DecState F32) (xs : List F32) : List F32 × DecState F32 :=
  decimate (firReal s.cfg.h1) s.cfg.h1.length s.ses.sD2 st xs

/-- The audio low-pass filter (44_fm_audio R298): one output per input, and the history left. -/
def lowPass (h : List F32) : List F32 → List F32 → List F32 × List F32
  | hist, [] => ([], hist)
  | hist, x :: xs =>
    let w := x :: hist
    let r := lowPass h (w.take (h.length - 1)) xs
    (numFir h w :: r.1, r.2)

/-- The FM demodulator (44_fm_audio R290, R291): one output per input, and the last sample. -/
def demodulate (gain : F32) : C32 → List C32 → List F32 × C32
  | prev, [] => ([], prev)
  | prev, x :: xs =>
    let r := demodulate gain x xs
    (mul32 gain (numPhase x prev) :: r.1, r.2)

/-- One windowed sample: both lanes scaled by the same coefficient (43_spectrum R260). -/
def windowSample (x : C32) (c : F32) : C32 := ⟨mul32 x.re c, mul32 x.im c⟩

/-- BinDb (43_spectrum R271). -/
def binDb (ofs : F32) (x : C32) : F32 := add32 (numDb (add32 (mul32 x.re x.re) (mul32 x.im x.im))) ofs

/-- n is a power of two (43_spectrum R267, 46_control R333). -/
def isPowerOfTwo (n : Nat) : Bool := n == 2 ^ Nat.log2 n

/-- A supported transform size: 2^j for j at least 1, and at most NMAX (43_spectrum R267). -/
def supported (nmax n : Nat) : Bool := isPowerOfTwo n && 2 ≤ n && n ≤ nmax

end Sys2Proof.Machine
end

