-- ==== Sys2Proof/Machine/Csr.lean ====
section
/-! DEFINITION. The CSR map (10_state R50): addresses, access types (R51), values (46_control R350) and writes (R355). -/

namespace Sys2Proof.Machine

/-- The registers of 10_state R50, in the order of the map. -/
inductive Csr
  | id
  | ctrl
  | status
  | nFft
  | decD
  | audD2
  | inRate
  | outRate
  | audRate
  | audioBufMs
  | gainConst
  | userOffset
  | specScale
  | dispRange
  | wbOffset
  | nbOffset
  | iqCap
  | iqAvail
  | iqWr
  | iqRd
  | oqCap
  | oqAvail
  | oqWr
  | oqRd
  | cntQfullIn
  | cntDropIn
  | cntQfullOut
  | cntDropOut
  | cntUnderrun
  | cntCycles
  | audioGain
  | lastLenWb
  | lastLenNb
  | nmax
  deriving DecidableEq, Repr

/-- The register assigned to an address, none for an unassigned or misaligned one (10_state R50, 20_memory R104, R105). -/
def Csr.ofAddr (addr : BitVec 12) : Option Csr :=
  match addr.toNat with
  | 0x000 => some .id
  | 0x004 => some .ctrl
  | 0x008 => some .status
  | 0x00C => some .nFft
  | 0x010 => some .decD
  | 0x014 => some .audD2
  | 0x018 => some .inRate
  | 0x01C => some .outRate
  | 0x020 => some .audRate
  | 0x024 => some .audioBufMs
  | 0x028 => some .gainConst
  | 0x02C => some .userOffset
  | 0x030 => some .specScale
  | 0x034 => some .dispRange
  | 0x038 => some .wbOffset
  | 0x03C => some .nbOffset
  | 0x040 => some .iqCap
  | 0x044 => some .iqAvail
  | 0x048 => some .iqWr
  | 0x04C => some .iqRd
  | 0x050 => some .oqCap
  | 0x054 => some .oqAvail
  | 0x058 => some .oqWr
  | 0x05C => some .oqRd
  | 0x060 => some .cntQfullIn
  | 0x064 => some .cntDropIn
  | 0x068 => some .cntQfullOut
  | 0x06C => some .cntDropOut
  | 0x070 => some .cntUnderrun
  | 0x074 => some .cntCycles
  | 0x078 => some .audioGain
  | 0x07C => some .lastLenWb
  | 0x080 => some .lastLenNb
  | 0x084 => some .nmax
  | _ => none

/-- The access types of 10_state R51; STATUS is the mixed one of R53. -/
inductive Access
  | ro
  | rwLive
  | rwStopped
  | wc
  | status
  deriving DecidableEq, Repr

/-- The access column of 10_state R50. -/
def Csr.access : Csr → Access
  | .id => .ro
  | .ctrl => .rwLive
  | .status => .status
  | .nFft => .rwStopped
  | .decD => .rwStopped
  | .audD2 => .rwStopped
  | .inRate => .rwStopped
  | .outRate => .ro
  | .audRate => .ro
  | .audioBufMs => .rwStopped
  | .gainConst => .rwStopped
  | .userOffset => .rwLive
  | .specScale => .rwLive
  | .dispRange => .rwLive
  | .wbOffset => .ro
  | .nbOffset => .ro
  | .iqCap => .ro
  | .iqAvail => .ro
  | .iqWr => .ro
  | .iqRd => .ro
  | .oqCap => .ro
  | .oqAvail => .ro
  | .oqWr => .ro
  | .oqRd => .ro
  | .cntQfullIn => .wc
  | .cntDropIn => .wc
  | .cntQfullOut => .wc
  | .cntDropOut => .wc
  | .cntUnderrun => .wc
  | .cntCycles => .wc
  | .audioGain => .ro
  | .lastLenWb => .ro
  | .lastLenNb => .ro
  | .nmax => .ro

/-- The block's identity (00_scope R2). -/
def blockId : Word := 0x52530701

/-- OUT_RATE = IN_RATE div DEC_D, 0 if DEC_D = 0 (10_state R50, R55). -/
def State.outRate (s : State) : Nat := s.csr.inRate.toNat / s.csr.decD.toNat

/-- AUD_RATE = IN_RATE div (DEC_D * AUD_D2), 0 if the product is 0 (10_state R50, R55). -/
def State.audRate (s : State) : Nat := s.csr.inRate.toNat / (s.csr.decD.toNat * s.csr.audD2.toNat)

/-- value(addr): the register's current content (46_control R350, 10_state R50). -/
def State.csrValue (s : State) : Csr → Word
  | .id => blockId
  | .ctrl => BitVec.ofNat 32 s.csr.winEn.toNat
  | .status => statusWord s
  | .nFft => s.csr.nFft
  | .decD => s.csr.decD
  | .audD2 => s.csr.audD2
  | .inRate => s.csr.inRate
  | .outRate => BitVec.ofNat 32 s.outRate
  | .audRate => BitVec.ofNat 32 s.audRate
  | .audioBufMs => s.csr.audioBufMs
  | .gainConst => s.csr.gainConst
  | .userOffset => s.csr.userOffset
  | .specScale => s.csr.specScale
  | .dispRange => s.csr.dispRange
  | .wbOffset => s.csr.wbOffset
  | .nbOffset => s.csr.nbOffset
  | .iqCap => BitVec.ofNat 32 s.cfg.capIn
  | .iqAvail => BitVec.ofNat 32 s.iq.avail
  | .iqWr => BitVec.ofNat 32 s.iq.wr
  | .iqRd => BitVec.ofNat 32 s.iq.rd
  | .oqCap => BitVec.ofNat 32 s.cfg.capOut
  | .oqAvail => BitVec.ofNat 32 s.oq.avail
  | .oqWr => BitVec.ofNat 32 s.oq.wr
  | .oqRd => BitVec.ofNat 32 s.oq.rd
  | .cntQfullIn => s.csr.cntQfullIn
  | .cntDropIn => s.csr.cntDropIn
  | .cntQfullOut => s.csr.cntQfullOut
  | .cntDropOut => s.csr.cntDropOut
  | .cntUnderrun => s.csr.cntUnderrun
  | .cntCycles => s.csr.cntCycles
  | .audioGain => s.cfg.audioGain
  | .lastLenWb => BitVec.ofNat 32 s.buf.lastLenWb
  | .lastLenNb => BitVec.ofNat 32 s.buf.lastLenNb
  | .nmax => BitVec.ofNat 32 s.cfg.nmax

/-- The stored register takes the value: CTRL keeps bit 0 only, STATUS clears by ones, a counter goes to 0 whatever the
data, an RO register is never reached here (46_control R355). -/
def State.csrStore (s : State) (r : Csr) (v : Word) : State :=
  match r with
  | .ctrl => s.setCsr { s.csr with winEn := v.getLsbD 0 }
  | .status => s.clearStatus v
  | .nFft => s.setCsr { s.csr with nFft := v }
  | .decD => s.setCsr { s.csr with decD := v }
  | .audD2 => s.setCsr { s.csr with audD2 := v }
  | .inRate => s.setCsr { s.csr with inRate := v }
  | .audioBufMs => s.setCsr { s.csr with audioBufMs := v }
  | .gainConst => s.setCsr { s.csr with gainConst := v }
  | .userOffset => s.setCsr { s.csr with userOffset := v }
  | .specScale => s.setCsr { s.csr with specScale := v }
  | .dispRange => s.setCsr { s.csr with dispRange := v }
  | .cntQfullIn => s.setCsr { s.csr with cntQfullIn := 0 }
  | .cntDropIn => s.setCsr { s.csr with cntDropIn := 0 }
  | .cntQfullOut => s.setCsr { s.csr with cntQfullOut := 0 }
  | .cntDropOut => s.setCsr { s.csr with cntDropOut := 0 }
  | .cntUnderrun => s.setCsr { s.csr with cntUnderrun := 0 }
  | .cntCycles => s.setCsr { s.csr with cntCycles := 0 }
  | .id => s
  | .outRate => s
  | .audRate => s
  | .wbOffset => s
  | .nbOffset => s
  | .iqCap => s
  | .iqAvail => s
  | .iqWr => s
  | .iqRd => s
  | .oqCap => s
  | .oqAvail => s
  | .oqWr => s
  | .oqRd => s
  | .audioGain => s
  | .lastLenWb => s
  | .lastLenNb => s
  | .nmax => s

/-- F_pull = (AUD_RATE * AUDIO_BUF_MS) div 1000 (45_ports R317, 46_control R333). -/
def State.framesPerPull (s : State) : Nat := s.audRate * s.csr.audioBufMs.toNat / 1000

/-- ConfigCheck(): the first cause of 46_control R333 that holds, 0 if none holds. -/
def State.configCheck (s : State) : Nat :=
  let n := s.csr.nFft.toNat
  let d := s.csr.decD.toNat
  let d2 := s.csr.audD2.toNat
  if isPowerOfTwo n = false ∨ n < 2 ∨ s.cfg.nmax < n then 1
  else if d = 0 ∨ n % d ≠ 0 then 2
  else if n / d < 2 then 3
  else if d2 = 0 ∨ n / d % d2 ≠ 0 then 4
  else if s.cfg.capIn < n then 5
  else if s.cfg.capOut < n / d / d2 then 6
  else if s.csr.inRate.toNat = 0 then 7
  else if s.csr.audioBufMs.toNat = 0 ∨ s.framesPerPull = 0 ∨ s.cfg.capOut < s.framesPerPull then 8
  else 0

end Sys2Proof.Machine
end

