-- ==== Sys2Proof/Machine/Control.lean ====
section
/-! DEFINITION. Session control, register access and the device fault (46_control): ACQ_START, ACQ_STOP, CSR_READ, CSR_WRITE,
DEV_FAULT. -/

namespace Sys2Proof.Machine

/-- The session parameters N, D, D2, M, K latched from the registers (00_scope R13, 46_control R330). -/
def State.latchedSession (s : State) : Session where
  sess    := .running
  stopReq := false
  sN      := s.csr.nFft.toNat
  sD      := s.csr.decD.toNat
  sD2     := s.csr.audD2.toNat
  sM      := s.csr.nFft.toNat / s.csr.decD.toNat
  sK      := s.csr.nFft.toNat / s.csr.decD.toNat / s.csr.audD2.toNat

/-- The filters and the demodulator as a session starts with them (42_decimator R246, 44_fm_audio R292, R300). -/
def freshFilters (c : Params) : Filters where
  dec0 := some ⟨List.replicate (c.h0.length - 1) ⟨0, 0⟩, 0⟩
  dec1 := some ⟨List.replicate (c.h1.length - 1) 0, 0⟩
  lpf  := some (List.replicate (c.h2.length - 1) 0)
  fm   := some ⟨0, 0⟩

/-- The window coefficients for a length (10_state R63, 43_spectrum R263). -/
def windowFor (n : Nat) : List F32 := (List.range n).map fun i => numWindow i n

/-- The window buffer computed for a length (10_state R63); the elements from that length on hold no value
(43_spectrum R261). -/
def State.loadWindow (s : State) (n : Nat) : State :=
  s.setBuf { s.buf with win := cellsFrom 0 (windowFor n), winLen := n }

/-- A session begun: queues, filters, window and worker as ACQ_START leaves them (46_control R330), the
working buffers without values (10_state R64). -/
def State.startSession (s : State) : State :=
  (((((s.forgetWork.setIq (s.iq.created s.cfg.capIn)).setOq (s.oq.created s.cfg.capOut)).setDsp (freshFilters s.cfg)).loadWindow
    s.csr.nFft.toNat).setSes s.latchedSession).setSeq { s.seq with wstate := .active, upc := 0, short := false }

/-- ACQ_START (46_control R330, R332, R333). -/
def execAcqStart (s : State) : Result :=
  if s.ses.sess ≠ .stopped then raise .h .busy s
  else if s.configCheck ≠ 0 then raise .h .configError (s.setConfigError (BitVec.ofNat 4 s.configCheck))
  else .next (s.startSession.respond .h .ok 0 [])

/-- ACQ_STOP (46_control R340). -/
def execAcqStop (s : State) : Result := .next (s.beginStop.respond .h .ok 0 [])

/-- CSR_READ (46_control R350, R352). -/
def execCsrRead (addr : BitVec 12) (s : State) : Result :=
  match Csr.ofAddr addr with
  | none => addrError .h s
  | some r => .next (s.respond .h .ok 0 [s.csrValue r])

/-- CSR_WRITE (46_control R355 to R357), its checks in the order of 60_exceptions R383. -/
def execCsrWrite (addr : BitVec 12) (value : Word) (s : State) : Result :=
  match Csr.ofAddr addr with
  | none => addrError .h s
  | some r =>
    if r.access = .ro then illegal .h s
    else if r.access = .rwStopped ∧ s.ses.sess ≠ .stopped then raise .h .busy s
    else .next ((s.csrStore r value).respond .h .ok 0 [])

/-- DEV_FAULT (46_control R360). -/
def execDevFault (s : State) : Result := .next ((s.setSticky .devfault).beginStop.respond .p .deviceFault 0 [])

end Sys2Proof.Machine
end

