-- ==== Sys2Proof/Machine/Engine.lean ====
section
/-! DEFINITION. The engine micro-operations: BUF_COPY (41_worker), WIN_APPLY, FFT_FWD, SPEC_POWER (43_spectrum), DECIMATE.0,
DECIMATE.1 (42_decimator), FM_DEMOD and LPF (44_fm_audio). -/

namespace Sys2Proof.Machine

/-- MemWrite(DST, 0, MemRead(SRC, 0, n)); SRC = DST changes nothing, and element types that differ are no legal operands
(41_worker R220, 30_encoding R145, R150; notes/assumptions/20.md). -/
def copyBuffer (src dst : WorkBuf) (n : Nat) (s : State) : Result :=
  match src, dst with
  | .complex a, .complex b => workerDone .ok 0 (if a = b then s else s.writeC b (s.readC a n))
  | .au, .au => workerDone .ok 0 s
  | .complex _, .au => illegal .w s
  | .au, .complex _ => illegal .w s

/-- BUF_COPY src, dst, L (41_worker R220). -/
def execBufCopy (src dst : WorkBuf) (len : Len) (s : State) : Result :=
  withLen len s fun n => copyBuffer src dst n s

/-- WIN_APPLY WIN, dst, L (43_spectrum R260, R261). -/
def execWinApply (dst : CBuf) (len : Len) (s : State) : Result :=
  withLen len s fun n =>
    if s.seq.latWin then
      if s.buf.winLen ≠ n then abandonCycle 10 s
      else workerDone .ok 0 (s.writeC dst (List.zipWith windowSample (s.readC dst n) (s.readWin n)))
    else workerDone .ok 0 s

/-- FFT_FWD buf, buf, L (43_spectrum R265, R267). -/
def execFftFwd (buf : CBuf) (len : Len) (s : State) : Result :=
  withLen len s fun n =>
    if supported s.cfg.nmax n then workerDone .ok 0 (s.writeC buf (numDft (s.readC buf n)))
    else abandonCycle 9 s

/-- SPEC_POWER src, dst, L (43_spectrum R270 to R273). -/
def execSpecPower (src : CBuf) (dst : PowerBuf) (len : Len) (s : State) : Result :=
  withLen len s fun n =>
    workerDone .ok 0 (s.commitPower dst ((s.readC src n).map (binDb (s.powerOffset dst))) n)

/-- DECIMATE.0 src, dst, L (42_decimator R240). -/
def execDecimate0 (src dst : CBuf) (len : Len) (s : State) : Result :=
  withLen len s fun n =>
    match s.dsp.dec0 with
    | none => useAfterTeardown s
    | some st =>
      let r := s.dec0Run st (s.readC src n)
      workerDone .ok 0 ((s.setDsp { s.dsp with dec0 := some r.2 }).writeC dst r.1)

/-- DECIMATE.1 AU, AU, L (42_decimator R248). -/
def execDecimate1 (len : Len) (s : State) : Result :=
  withLen len s fun n =>
    match s.dsp.dec1 with
    | none => useAfterTeardown s
    | some st =>
      let r := s.dec1Run st (s.readAu n)
      workerDone .ok 0 ((s.setDsp { s.dsp with dec1 := some r.2 }).writeAu r.1)

/-- FM_DEMOD src, AU, L (44_fm_audio R290). -/
def execFmDemod (src : CBuf) (len : Len) (s : State) : Result :=
  withLen len s fun n =>
    match s.dsp.fm with
    | none => useAfterTeardown s
    | some prev =>
      let r := demodulate s.cfg.fmGain prev (s.readC src n)
      workerDone .ok 0 ((s.setDsp { s.dsp with fm := some r.2 }).writeAu r.1)

/-- LPF AU, AU, L (44_fm_audio R298). -/
def execLpf (len : Len) (s : State) : Result :=
  withLen len s fun n =>
    match s.dsp.lpf with
    | none => useAfterTeardown s
    | some hist =>
      let r := lowPass s.cfg.h2 hist (s.readAu n)
      workerDone .ok 0 ((s.setDsp { s.dsp with lpf := some r.2 }).writeAu r.1)

end Sys2Proof.Machine
end

