-- ==== Sys2Proof/Machine/Ports.lean ====
section
/-! DEFINITION. The two boundary ports (45_ports): AUD_PULL and SNAP_READ. -/

namespace Sys2Proof.Machine

/-- `n` words +0.0 (45_ports R310). -/
def silence (n : Nat) : List Word := List.replicate n 0

/-- Each mono sample, scaled, as a left and a right word (45_ports R310, R311). -/
def stereo (gain : F32) : List F32 → List Word
  | [] => []
  | x :: xs => mul32 gain x :: mul32 gain x :: stereo gain xs

/-- What an underrunning pull does to OQ (45_ports R314). -/
def State.underrunOq (s : State) : State :=
  match s.cfg.underrunConsume with
  | .keep => s
  | .discard => s.setOq (s.readOq s.oq.cv).queue

/-- AUD_PULL #F (45_ports R310 to R314). -/
def execAudPull (frames : Nat) (s : State) : Result :=
  if s.oq.isOpen = false then .next (s.respond .a .closed frames (silence (2 * frames)))
  else if frames ≤ s.oq.cv then
    let r := s.readOq frames
    .next ((s.setOq r.queue).respond .a .ok frames (stereo s.cfg.audioGain r.out))
  else .next (s.underrunOq.countUnderrun.respond .a .underrun frames (silence (2 * frames)))

/-- How many bins SNAP_READ copies: CNT, or the whole last commit for 0 (45_ports R318). -/
def State.snapCount (s : State) (sel : PowerBuf) (count : Nat) : Nat := if count = 0 then s.powerLen sel else count

/-- SNAP_READ WB|NB, #c (45_ports R318, R320, R321). -/
def execSnapRead (sel : PowerBuf) (count : Nat) (s : State) : Result :=
  if s.powerValid sel = false then raise .s .notReady s
  else if s.powerLen sel < s.snapCount sel count then addrError .s s
  else .next (s.respond .s .ok (s.snapCount sel count) (s.readPower sel (s.snapCount sel count)))

end Sys2Proof.Machine
end

