-- ==== Sys2Proof/Machine/QueueCommands.lean ====
section
/-! DEFINITION. The Sample Queue commands (40_queue): QWRITE in its two forms, QREAD, QAVAIL, QOPEN, QCLOSE. -/

namespace Sys2Proof.Machine

/-- QWRITE IQ (40_queue R170, R176). -/
def execQwriteIq (block : List C32) (s : State) : Result :=
  let r := s.writeIq block
  let s1 := s.setIq r.queue
  let s2 := if r.status = .qfull then s1.countDropIn (block.length - r.accepted) else s1
  .next (s2.respond .p r.status r.accepted [])

/-- QWRITE OQ, AU, L (40_queue R177); the worker goes on whatever the status. -/
def execQwriteOq (len : Len) (s : State) : Result :=
  withLen len s fun n =>
    let r := s.writeOq (s.readAu n)
    let s1 := s.setOq r.queue
    let s2 := if r.status = .qfull then s1.countDropOut (n - r.accepted) else s1
    workerDone r.status r.accepted s2

/-- QREAD IQ, buf, L (40_queue R180, R183). -/
def execQread (dst : CBuf) (len : Len) (s : State) : Result :=
  withLen len s fun n =>
    let r := s.readIq n
    let s1 := (s.setIq r.queue).writeC dst r.out
    workerDone r.status r.out.length (s1.setSeq { s1.seq with short := r.out.length < n })

/-- QAVAIL (40_queue R185): the true count. -/
def execQavail (q : QueueSel) (s : State) : Result := .next (s.respond .h .ok (s.queueAvail q) [])

/-- QOPEN (40_queue R188). -/
def execQopen (q : QueueSel) (s : State) : Result :=
  if s.ses.sess = .running then .next ((s.setOpen q true).respond .h .ok 0 []) else raise .h .busy s

/-- QCLOSE (40_queue R191). -/
def execQclose (q : QueueSel) (s : State) : Result := .next ((s.setOpen q false).respond .h .ok 0 [])

end Sys2Proof.Machine
end

