-- ==== Sys2Proof/Machine/Sequencer.lean ====
section
/-! DEFINITION. The sequencer micro-operations (41_worker): SEQ_TOP, SEQ_WAIT, SEQ_LATCH, SEQ_JSHORT, SEQ_END. -/

namespace Sys2Proof.Machine

/-- SEQ_WAIT's condition (41_worker R212). -/
def waitPasses (s : State) : Bool := s.ses.stopReq || !s.iq.isOpen || s.ses.sN ≤ s.iq.cv

/-- SEQ_TOP (41_worker R210): on exit upc stays. A cycle begins or the loop ends, so the working buffers hold no value from
here on (10_state R64). -/
def execSeqTop (s : State) : Result :=
  let s1 := s.forgetWork
  if s.ses.stopReq then .next ((s1.setSeq { s.seq with wstate := .exited }).respond .w .ok 0 [])
  else workerDone .ok 0 s1

/-- SEQ_WAIT (41_worker R212); a hold keeps every piece of state and gives no response (60_exceptions R400). -/
def execSeqWait (s : State) : Result := if waitPasses s then workerDone .ok 0 s else .next s

/-- SEQ_LATCH (41_worker R216): the live settings, and both branches' offsets from sN / 2 and sN / (2 * sD). -/
def execSeqLatch (s : State) : Result :=
  let uo := s.csr.userOffset
  let s1 := s.setSeq { s.seq with latWin := s.csr.winEn, latUo := uo }
  workerDone .ok 0 (s1.setCsr { s1.csr with
    wbOffset := numOffset s.csr.gainConst (ratioOf s.ses.sN 2) uo
    nbOffset := numOffset s.csr.gainConst (ratioOf s.ses.sN (2 * s.ses.sD)) uo })

/-- SEQ_JSHORT tgt (41_worker R218). -/
def execSeqJshort (target : Nat) (s : State) : Result :=
  if s.seq.short then .next ((s.setUpc target).respond .w .ok 0 []) else workerDone .ok 0 s

/-- SEQ_END (41_worker R224). The cycle ends, so the working buffers hold no value from here on (10_state R64). -/
def execSeqEnd (s : State) : Result := .next ((s.forgetWork.countCycle.setUpc 0).respond .w .ok 0 [])

end Sys2Proof.Machine
end

