-- ==== Sys2Proof/Machine/Dispatch.lean ====
section
/-! DEFINITION. One arm per command. -/

namespace Sys2Proof.Machine

/-- The meaning of a command in a state (30_encoding R144). -/
def exec (i : Instr) (s : State) : Host.Outcome State Fault Refusal :=
  match i with
  | .qwriteIq block => Sys2Proof.Machine.execQwriteIq block s
  | .qwriteOq len => Sys2Proof.Machine.execQwriteOq len s
  | .qread dst len => Sys2Proof.Machine.execQread dst len s
  | .qavail q => Sys2Proof.Machine.execQavail q s
  | .qopen q => Sys2Proof.Machine.execQopen q s
  | .qclose q => Sys2Proof.Machine.execQclose q s
  | .acqStart => Sys2Proof.Machine.execAcqStart s
  | .acqStop => Sys2Proof.Machine.execAcqStop s
  | .csrRead addr => Sys2Proof.Machine.execCsrRead addr s
  | .csrWrite addr value => Sys2Proof.Machine.execCsrWrite addr value s
  | .devFault => Sys2Proof.Machine.execDevFault s
  | .audPull frames => Sys2Proof.Machine.execAudPull frames s
  | .snapRead sel count => Sys2Proof.Machine.execSnapRead sel count s
  | .bufCopy src dst len => Sys2Proof.Machine.execBufCopy src dst len s
  | .winApply dst len => Sys2Proof.Machine.execWinApply dst len s
  | .fftFwd buf len => Sys2Proof.Machine.execFftFwd buf len s
  | .specPower src dst len => Sys2Proof.Machine.execSpecPower src dst len s
  | .decimate0 src dst len => Sys2Proof.Machine.execDecimate0 src dst len s
  | .decimate1 len => Sys2Proof.Machine.execDecimate1 len s
  | .fmDemod src len => Sys2Proof.Machine.execFmDemod src len s
  | .lpf len => Sys2Proof.Machine.execLpf len s
  | .seqTop => Sys2Proof.Machine.execSeqTop s
  | .seqWait => Sys2Proof.Machine.execSeqWait s
  | .seqLatch => Sys2Proof.Machine.execSeqLatch s
  | .seqJshort target => Sys2Proof.Machine.execSeqJshort target s
  | .seqEnd => Sys2Proof.Machine.execSeqEnd s

end Sys2Proof.Machine
end

