-- ==== Sys2Proof/Machine/Agents.lean ====
section
/-! DEFINITION. What one turn of each agent does (00_scope R9), the worker's fetch, the turn taken when none is scheduled,
and how a word is placed where the next step runs it. -/

namespace Sys2Proof.Machine

def portOfExt : ExtPort → Port
  | .p => .p
  | .a => .a
  | .s => .s
  | .h => .h

/-- An external agent's command: decoded against its port's set, then run; an illegal one changes only ERR_ILLEGAL
(30_encoding R136, R150). -/
def runCommand (port : ExtPort) (w : Word) (payload : List Word) (s : State) : Result :=
  match decode (portOfExt port) w payload with
  | .ok i => exec i s
  | .error _ => illegal (portOfExt port) s

/-- The word ROM[upc] (41_worker R201). -/
def fetch (s : State) : Option Word := s.rom[s.seq.upc]?

/-- The worker's step: only while wstate = ACTIVE, it fetches ROM[upc] and executes it (41_worker R201). -/
def runWorker (s : State) : Result :=
  if s.seq.wstate = .active then
    match fetch s with
    | none => .fault (.romAddress s.seq.upc)
    | some w =>
      match decode .w w [] with
      | .ok i => exec i s
      | .error _ => illegal .w s
  else .next s

/-- The control unit's step, when it is enabled (46_control R346). -/
def runControl (s : State) : Result := if stopEnabled s then .next s.stopComplete else .next s

/-- The synchroniser's step on a queue, when it is enabled and the views are ones it may choose (20_memory R112). -/
def runSync (q : QueueSel) (cv pv : Nat) (s : State) : Result :=
  match q with
  | .iq => .next (s.setIq (s.iq.sync s.cfg.queueView s.cfg.capIn cv pv))
  | .oq => .next (s.setOq (s.oq.sync s.cfg.queueView s.cfg.capOut cv pv))

/-- One agent's turn; an agent that has no step in this state leaves it as it is (notes/assumptions/3.md). -/
def runEvent (e : Event) (s : State) : Result :=
  match e with
  | .command port w payload => runCommand port w payload s
  | .worker => runWorker s
  | .control => runControl s
  | .sync q cv pv => runSync q cv pv s

/-- Whether the worker is held: its next micro-operation is SEQ_WAIT and the condition is false (60_exceptions R400). -/
def workerHolds (s : State) : Bool :=
  match fetch s with
  | none => false
  | some w =>
    match decode .w w [] with
    | .ok i => i == .seqWait && !waitPasses s
    | .error _ => false

/-- Whether the worker has a step that is not a hold (70_reset R432). -/
def workerEnabled (s : State) : Bool := s.seq.wstate == .active && !workerHolds s

/-- Whether Y has a step on IQ (20_memory R112). -/
def syncIqEnabled (s : State) : Bool := s.cfg.queueView == .conservative && viewLags s.cfg.capIn s.iq

/-- Whether Y has a step on OQ (20_memory R112). -/
def syncOqEnabled (s : State) : Bool := s.cfg.queueView == .conservative && viewLags s.cfg.capOut s.oq

/-- The block is idle: no internal agent has a step (70_reset R432). -/
def idle (s : State) : Bool :=
  !stopEnabled s && !syncIqEnabled s && !syncOqEnabled s && !workerEnabled s

/-- The turn taken when the schedule is empty: the control unit, else the synchroniser, bringing both views of a queue to
the true values, else the worker; none when the block is idle (DESIGN CHOICE, notes/assumptions/2.md). -/
def internalTurn (s : State) : Option Event :=
  if stopEnabled s then some .control
  else if syncIqEnabled s then some (.sync .iq s.iq.avail (s.cfg.capIn - s.iq.avail))
  else if syncOqEnabled s then some (.sync .oq s.oq.avail (s.cfg.capOut - s.oq.avail))
  else if workerEnabled s then some .worker
  else none

/-- One step: the next scheduled turn; with none scheduled an internal turn; with no step left the block rests. -/
def runNext (s : State) : Result :=
  match s.sched with
  | e :: rest => runEvent e (s.setSched rest)
  | [] =>
    match internalTurn s with
    | some e => runEvent e s
    | none => .next s

/-! ### Placing a word where the next step runs it (notes/assumptions/22.md) -/

/-- The ROM with a word at an address, lengthened with zeros where it is shorter. -/
def romWith (rom : List Word) (upc : Nat) (w : Word) : List Word :=
  (rom ++ List.replicate (upc + 1 - rom.length) 0).set upc w

/-- The word and its payload as the next turn of an external port. -/
def scheduleCommand (port : ExtPort) (w : Word) (payload : List Word) (s : State) : State :=
  s.setSched (.command port w payload :: s.sched)

/-- The word in the ROM at upc, the worker active and the next turn its own. -/
def scheduleMicro (w : Word) (s : State) : State :=
  ((s.setRom (romWith s.rom s.seq.upc w)).setSeq { s.seq with wstate := .active }).setSched (.worker :: s.sched)

/-- A word of a table row and its payload placed so that the next step runs it: on the external port that accepts it, or
as the worker's next micro-operation. -/
def placeWord (s : State) (nbits w : Nat) : State :=
  let words := tableWords nbits w
  match portOf words.1 words.2 with
  | .p => scheduleCommand .p words.1 words.2 s
  | .a => scheduleCommand .a words.1 words.2 s
  | .s => scheduleCommand .s words.1 words.2 s
  | .h => scheduleCommand .h words.1 words.2 s
  | .w => scheduleMicro words.1 s

end Sys2Proof.Machine
end

