-- ==== Sys2Proof/Machine/Step.lean ====
section
/-! DEFINITION. The step of the block, and the placing of a word where it runs it. -/

namespace Sys2Proof.Machine

/-- One atomic step of one agent (00_scope R10). -/
def step (s : State) : Host.Outcome State Fault Refusal := runNext s

/-- The state in which the next step runs exactly the instruction of a table row (notes/assumptions/22.md). -/
def State.withFetchWord (s : State) (nbits w : Nat) : State := placeWord s nbits w

end Sys2Proof.Machine
end

