-- ==== Sys2Proof/Safety.lean ====
section
/-! DEFINITION. What a well-formed instance and a well-formed state of the block are, and what a safe run is. -/

namespace Sys2Proof.Machine

/-- The constraints 00_scope R12 puts on the parameters of an instance. -/
structure ValidParams (c : Params) : Prop where
  nmaxPower  : isPowerOfTwo c.nmax = true
  nmaxLow    : 2 ≤ c.nmax
  nmaxHigh   : c.nmax ≤ 2 ^ 19
  capInLow   : 1 ≤ c.capIn
  capInHigh  : c.capIn < 2 ^ 24
  capOutLow  : 1 ≤ c.capOut
  capOutHigh : c.capOut < 2 ^ 24
  taps0      : 1 ≤ c.h0.length
  taps1      : 1 ≤ c.h1.length
  taps2      : 1 ≤ c.h2.length
  audioGain  : fIsFinite c.audioGain = true
  fmGain     : fIsFinite c.fmGain = true

/-- What holds of a queue after every step (10_state R42, R44, R45, R48), and that every sample it holds was written. -/
structure QueueInv {α : Type} (view : QueueView) (cap : Nat) (q : Queue α) : Prop where
  availLe   : q.avail ≤ cap
  rdLt      : q.rd < cap
  wrEq      : q.wr = (q.rd + q.avail) % cap
  cvLe      : q.cv ≤ q.avail
  pvLe      : q.pv ≤ cap - q.avail
  exactCv   : view = .exact → q.cv = q.avail
  exactPv   : view = .exact → q.pv = cap - q.avail
  bufWf     : Memory.wf q.buf
  inRange   : ∀ c ∈ q.buf, c.1 < cap
  held      : ∀ i, i < q.avail → (q.buf.read ((q.rd + i) % cap)).isSome = true

/-- The destroyed form of a queue (10_state R46, R48). -/
def Queue.isDestroyed {α : Type} (cap : Nat) (q : Queue α) : Prop :=
  q.avail = 0 ∧ q.wr = 0 ∧ q.rd = 0 ∧ q.isOpen = false ∧ q.cv = 0 ∧ q.pv = cap

/-- The session quantities of a started session (46_control R335, 10_state R84). -/
structure SessionInv (s : State) : Prop where
  nEq      : s.ses.sN = s.csr.nFft.toNat
  dEq      : s.ses.sD = s.csr.decD.toNat
  d2Eq     : s.ses.sD2 = s.csr.audD2.toNat
  supportN : supported s.cfg.nmax s.ses.sN = true
  supportM : supported s.cfg.nmax s.ses.sM = true
  mExact   : s.ses.sM * s.ses.sD = s.ses.sN
  kExact   : s.ses.sK * s.ses.sD2 = s.ses.sM
  kLow     : 1 ≤ s.ses.sK
  fitsIn   : s.ses.sN ≤ s.cfg.capIn
  fitsOut  : s.ses.sK ≤ s.cfg.capOut
  winLen   : s.buf.winLen = s.ses.sN

/-- The filters of a worker that may run: present, with histories of the filters' lengths and phase 0, where every call of
the ROM starts and ends (10_state R77 to R79, 42_decimator R244). -/
structure FiltersInv (s : State) : Prop where
  dec0 : ∃ st, s.dsp.dec0 = some st ∧ st.hist.length = s.cfg.h0.length - 1 ∧ st.phase = 0
  dec1 : ∃ st, s.dsp.dec1 = some st ∧ st.hist.length = s.cfg.h1.length - 1 ∧ st.phase = 0
  lpf  : ∃ h, s.dsp.lpf = some h ∧ h.length = s.cfg.h2.length - 1
  fm   : s.dsp.fm.isSome = true

/-- The first `n` elements of a storage hold values. -/
def written {α : Type} (m : Memory α) (n : Nat) : Prop := ∀ i, i < n → (m.read i).isSome = true

/-- The working buffers hold no value (10_state R64). -/
def Buffers.noWork (b : Buffers) : Prop := b.wb = [] ∧ b.db = [] ∧ b.nb = [] ∧ b.au = []

/-- What the ROM has written in the cycle by the time the worker is at upc (41_worker R230), and that a working buffer holds
no value until the worker writes it in the cycle (10_state R64); a short block that SEQ_JSHORT discards stands in WB until
SEQ_TOP. -/
structure CycleInv (s : State) : Prop where
  wb  : 4 ≤ s.seq.upc ∨ (s.seq.upc = 3 ∧ s.seq.short = false) → written s.buf.wb s.ses.sN
  db  : 6 ≤ s.seq.upc → written s.buf.db s.ses.sN
  nb  : 10 ≤ s.seq.upc → written s.buf.nb s.ses.sM
  au  : 11 ≤ s.seq.upc → written s.buf.au s.ses.sM
  win : written s.buf.win s.ses.sN
  freshWb : s.seq.upc = 1 ∨ s.seq.upc = 2 → s.buf.wb = []
  freshDb : s.seq.upc < 6 → s.buf.db = []
  freshNb : s.seq.upc < 10 → s.buf.nb = []
  freshAu : s.seq.upc < 11 → s.buf.au = []

/-- The storages are in canonical form and no index reaches NMAX (20_memory R101), and the committed lengths cover only
committed bins (10_state R62, 45_ports R321), and the window holds no coefficient from its length on (43_spectrum R261). -/
structure BuffersInv (s : State) : Prop where
  wb   : Memory.wf s.buf.wb ∧ ∀ c ∈ s.buf.wb, c.1 < s.cfg.nmax
  db   : Memory.wf s.buf.db ∧ ∀ c ∈ s.buf.db, c.1 < s.cfg.nmax
  nb   : Memory.wf s.buf.nb ∧ ∀ c ∈ s.buf.nb, c.1 < s.cfg.nmax
  au   : Memory.wf s.buf.au ∧ ∀ c ∈ s.buf.au, c.1 < s.cfg.nmax
  pwWb : Memory.wf s.buf.pwWb ∧ ∀ c ∈ s.buf.pwWb, c.1 < s.cfg.nmax
  pwNb : Memory.wf s.buf.pwNb ∧ ∀ c ∈ s.buf.pwNb, c.1 < s.cfg.nmax
  win  : Memory.wf s.buf.win ∧ ∀ c ∈ s.buf.win, c.1 < s.cfg.nmax
  wide   : written s.buf.pwWb s.buf.lastLenWb
  narrow : written s.buf.pwNb s.buf.lastLenNb
  wideLen   : s.buf.lastLenWb ≤ s.cfg.nmax
  narrowLen : s.buf.lastLenNb ≤ s.cfg.nmax
  winLen    : s.buf.winLen ≤ s.cfg.nmax
  winHeld   : ∀ c ∈ s.buf.win, c.1 < s.buf.winLen

/-- How the session state, the worker state and the stop signal go together (10_state R46, R75, R76, R81; 46_control R365). -/
def LifecycleInv (s : State) : Prop :=
  match s.ses.sess with
  | .stopped =>
    s.seq.wstate = .off ∧ s.ses.stopReq = false ∧ s.seq.upc = 0 ∧ s.seq.short = false ∧
    s.iq.isDestroyed s.cfg.capIn ∧ s.oq.isDestroyed s.cfg.capOut ∧ s.dsp = ⟨none, none, none, none⟩ ∧
    s.buf.noWork
  | .running =>
    s.seq.wstate = .active ∧ s.ses.stopReq = false ∧ SessionInv s ∧ FiltersInv s ∧ CycleInv s
  | .stopping =>
    (s.seq.wstate = .active ∨ (s.seq.wstate = .exited ∧ s.seq.upc = 0 ∧ s.buf.noWork)) ∧ s.ses.stopReq = true ∧
    s.iq.isOpen = false ∧ s.oq.isOpen = false ∧ SessionInv s ∧ FiltersInv s ∧ CycleInv s

/-- The invariant of the block: what every state reached from reset satisfies. -/
structure Inv (s : State) : Prop where
  params    : ValidParams s.cfg
  rom       : s.rom = microprogram
  upcLt     : s.seq.upc < 17
  iq        : QueueInv s.cfg.queueView s.cfg.capIn s.iq
  oq        : QueueInv s.cfg.queueView s.cfg.capOut s.oq
  buffers   : BuffersInv s
  lifecycle : LifecycleInv s

/-- A step that neither faults nor is refused. -/
def Completes (r : Result) : Prop := ∃ s', r = .next s'

/-! ### Terms the statements use -/

/-- The bins of a Power Spectrum Buffer (10_state R61). -/
def State.powerBins (s : State) : PowerBuf → Memory F32
  | .wide => s.buf.pwWb
  | .narrow => s.buf.pwNb

/-- The opcodes each port accepts, as 30_encoding R136 lists them. -/
def acceptedOpcodes : Port → List Nat
  | .p => [0x01, 0x0C]
  | .w => [0x01, 0x02, 0x20, 0x21, 0x22, 0x23, 0x24, 0x25, 0x26, 0x30, 0x31, 0x32, 0x33, 0x34]
  | .a => [0x10]
  | .s => [0x11]
  | .h => [0x03, 0x04, 0x05, 0x08, 0x09, 0x0A, 0x0B]

/-- What can happen to one queue in a session: a write, a read, a change of its open flag, a step of Y. -/
inductive QueueOp (α : Type)
  | write (data : List α)
  | read (max : Nat)
  | setOpen (v : Bool)
  | sync (cv pv : Nat)
  deriving DecidableEq, Repr

/-- A queue with all samples it has accepted and all it has returned, in step order (20_memory R113). -/
structure QueueTrace (α : Type) where
  queue    : Queue α
  accepted : List α
  returned : List α

/-- One operation, and the samples it adds to the trace. -/
def QueueOp.run {α : Type} (free : Nat → α) (view : QueueView) (cap : Nat) (r : QueueTrace α) : QueueOp α → QueueTrace α
  | .write data =>
    let w := queueWrite view cap r.queue data
    ⟨w.queue, r.accepted ++ data.take w.accepted, r.returned⟩
  | .read max =>
    let w := queueRead free view cap r.queue max
    ⟨w.queue, r.accepted, r.returned ++ w.out⟩
  | .setOpen v => ⟨{ r.queue with isOpen := v }, r.accepted, r.returned⟩
  | .sync cv pv => ⟨r.queue.sync view cap cv pv, r.accepted, r.returned⟩

/-- A finite f32 whose value is the integer `k`. -/
def IsInteger (a : F32) (k : Int) : Prop := fIsFinite a = true ∧ fUnits a = k * 2 ^ 149

/-- `r` is the rounding to binary32, to nearest with ties to even, of the non-zero value of `v` units of 2^-298
(00_scope R18): an infinity from half a last place beyond the largest finite value on, else a finite value that no finite
value is closer than, its last bit 0 where another is as close; always with the sign of `v`. -/
def NearestEven (v : Int) (r : F32) : Prop :=
  fSign r = decide (v < 0) ∧
  if v.natAbs < (2 ^ 25 - 1) * 2 ^ 401 then
    fIsFinite r = true ∧
    ∀ c : F32, fIsFinite c = true →
      (fUnits r * 2 ^ 149 - v).natAbs < (fUnits c * 2 ^ 149 - v).natAbs ∨
      ((fUnits r * 2 ^ 149 - v).natAbs = (fUnits c * 2 ^ 149 - v).natAbs ∧
        (fUnits c = fUnits r ∨ r.toNat % 2 = 0))
  else fIsInf r = true

/-- How many steps the worker of a stopping session still takes before it has exited (41_worker R234): 0 once it has. -/
def State.stopRank (s : State) : Nat :=
  if s.seq.wstate = .exited then 0
  else match s.seq.upc with
    | 0 => 1
    | 1 => 4
    | 2 => 3
    | 3 => if s.seq.short then 2 else 15
    | u => 18 - u

end Sys2Proof.Machine
end

