-- ==== Sys2Proof/Certificates/Slice0/Obligations.lean ====
section
/-! DEFINITION. The statements for the provers. Where a docstring names a log entry, that clause is the model's choice. That
responses are kept in State.replies, the worker's own among them, is the model's throughout (notes/assumptions/4.md). -/

open Sys2Proof Sys2Proof.Machine

/-! ### Encoding -/

/-- The seventeen words of the ROM are those of 41_worker R229 and decode on port W to the micro-operations of its
assembly column; a word of every other family, written out from 30_encoding R131 and R144, decodes to its command. -/
def Obligations.TableWordsDecode : Prop :=
  microprogram =
    [0xC0000000, 0xC4000000, 0x09000000, 0xCC000000, 0xC8000000, 0x80100000, 0x87000000, 0x88000000, 0x8C400000,
     0x90A00000, 0x95340000, 0x99B40000, 0x91B60000, 0x06700000, 0x89240000, 0x8D540000, 0xD0000000] ∧
  (microprogram.map fun w => (decode .w w []).toOption) =
    [some .seqTop, some .seqWait, some (.qread .wb .n), some (.seqJshort 0), some .seqLatch,
     some (.bufCopy (.complex .wb) (.complex .db) .n), some (.winApply .wb .n), some (.fftFwd .wb .n),
     some (.specPower .wb .wide .n), some (.decimate0 .db .nb .n), some (.fmDemod .nb .m), some (.lpf .m),
     some (.decimate1 .m), some (.qwriteOq .k), some (.fftFwd .nb .m), some (.specPower .nb .narrow .m), some .seqEnd] ∧
  (decode .p 0x05000001 [0x3F800000, 0xBF800000]).toOption = some (.qwriteIq [⟨0x3F800000, 0xBF800000⟩]) ∧
  (decode .p 0x30000000 []).toOption = some .devFault ∧
  (decode .a 0x40000003 []).toOption = some (.audPull 3) ∧
  (decode .s 0x46000005 []).toOption = some (.snapRead .narrow 5) ∧
  (decode .h 0x0E000000 []).toOption = some (.qavail .oq) ∧
  (decode .h 0x10000000 []).toOption = some (.qopen .iq) ∧
  (decode .h 0x16000000 []).toOption = some (.qclose .oq) ∧
  (decode .h 0x20000000 []).toOption = some .acqStart ∧
  (decode .h 0x24000000 []).toOption = some .acqStop ∧
  (decode .h 0x28000020 []).toOption = some (.csrRead 0x020) ∧
  (decode .h 0x2C00000C [0x00000008]).toOption = some (.csrWrite 0x00C 0x00000008)

/-- Decoding an encoded well-formed command on its port gives it back, every operand and payload word with it. -/
def Obligations.DecodeOfEncode : Prop :=
  ∀ i : Instr, i.wf = true → decode i.port (encodeWord i) (encodePayload i) = .ok i

/-- Every word and payload a port accepts is the encoding of the one well-formed command of that port it decodes to
(30_encoding R151). -/
def Obligations.EncodeOfDecode : Prop :=
  ∀ (port : Port) (w : Word) (payload : List Word) (i : Instr), decode port w payload = .ok i →
    i.wf = true ∧ i.port = port ∧ encodeWord i = w ∧ encodePayload i = payload

/-- An accepted command carries exactly the payload its word fixes: 2 * CNT words for QWRITE on port P, its samples with
the in-phase word first, one word for CSR_WRITE, none for every other command (30_encoding R147). -/
def Obligations.PayloadLengthFixedByWord : Prop :=
  ∀ (port : Port) (w : Word) (payload : List Word) (i : Instr), decode port w payload = .ok i →
    payload.length =
      (if port = .p ∧ w.extractLsb' 26 6 = 0x01 then 2 * (w.extractLsb' 0 24).toNat
       else if w.extractLsb' 26 6 = 0x0B then 1
       else 0) ∧
    (∀ block, i = .qwriteIq block → payload = block.flatMap fun x => [x.re, x.im])

/-- A port accepts no opcode outside its set of 30_encoding R136, so no external port can issue a worker's micro-operation
and the worker no command of another port. -/
def Obligations.PortsDecodeOnlyTheirOpcodes : Prop :=
  ∀ (port : Port) (w : Word) (payload : List Word) (i : Instr), decode port w payload = .ok i →
    (w.extractLsb' 26 6).toNat ∈ acceptedOpcodes port ∧ i.opcode = (w.extractLsb' 26 6).toNat

/-- An illegal command on a port changes nothing but ERR_ILLEGAL and the response, and the worker's ROM holds no illegal
word (60_exceptions R372). -/
def Obligations.IllegalCommandSetsOnlyErrIllegal : Prop :=
  (∀ (port : ExtPort) (w : Word) (payload : List Word) (r : Reject) (s : State),
    decode (portOfExt port) w payload = .error r →
    runCommand port w payload s = .next { s with
      csr := { s.csr with sticky := { s.csr.sticky with illegal := true } }
      replies := ⟨portOfExt port, responseWord .illegal 0, []⟩ :: s.replies }) ∧
  (∀ w ∈ microprogram, ∃ i, decode .w w [] = .ok i)

/-- The response word is STATUS[31:28], zeros, COUNT[23:0], with the codes of 30_encoding R161, and every command that
completes gives exactly one response, on its own port; only a held SEQ_WAIT gives none (30_encoding R160). That responses
are recorded, and that a hold gives none, is the model's (notes/assumptions/4.md). -/
def Obligations.ExactlyOneResponsePerCommand : Prop :=
  (∀ (st : Status) (count : Nat), count < 2 ^ 24 →
    (responseWord st count).extractLsb' 24 4 = 0 ∧ ((responseWord st count).extractLsb' 0 24).toNat = count ∧
    ((responseWord st count).extractLsb' 28 4).toNat =
      match st with
      | .ok => 0 | .qfull => 1 | .closed => 2 | .underrun => 3 | .configError => 4 | .deviceFault => 5 | .busy => 6
      | .illegal => 7 | .addrError => 8 | .notReady => 9) ∧
  (∀ (i : Instr) (s t : State), exec i s = .next t →
    (∃ r : Reply, r.port = i.port ∧ t.replies = r :: s.replies) ∨
    (i = .seqWait ∧ waitPasses s = false ∧ t = s))

/-! ### The step -/

/-- A step runs the decoded command: the next scheduled turn of a port runs the command its word and payload decode to,
and a turn of the active worker, scheduled or taken when nothing is scheduled, runs the micro-operation the ROM word at
upc decodes to; a scheduled turn of a worker that is not ACTIVE, which has no step, is used up. A word that decodes to no
command changes nothing but ERR_ILLEGAL and the response, on a port and in the ROM, and a fetch outside the ROM stops. A
turn of the control unit or the synchroniser, scheduled or taken when nothing is scheduled, runs that agent, the control
unit whenever its step is enabled and nothing is scheduled; with no turn left the state rests. That the schedule is data,
the turn taken without one, that a turn with no step changes nothing, the upc after an illegal ROM word and the stop outside
the ROM are the model's choice (notes/assumptions/2.md, 3.md, 11.md, 12.md). -/
def Obligations.StepRunsTheDecodedCommand : Prop :=
  (∀ (s : State) (port : ExtPort) (w : Word) (payload : List Word) (rest : List Event) (i : Instr),
    s.sched = .command port w payload :: rest → decode (portOfExt port) w payload = .ok i →
    step s = exec i { s with sched := rest }) ∧
  (∀ (s : State) (w : Word) (rest : List Event) (i : Instr),
    s.sched = .worker :: rest → s.seq.wstate = .active → s.rom[s.seq.upc]? = some w → decode .w w [] = .ok i →
    step s = exec i { s with sched := rest }) ∧
  (∀ (s : State) (w : Word) (i : Instr),
    s.sched = [] → internalTurn s = some .worker → s.rom[s.seq.upc]? = some w → decode .w w [] = .ok i →
    step s = exec i s) ∧
  (∀ (s : State) (rest : List Event), s.sched = .worker :: rest → s.seq.wstate ≠ .active →
    step s = .next { s with sched := rest }) ∧
  (∀ (s : State) (port : ExtPort) (w : Word) (payload : List Word) (rest : List Event) (r : Reject),
    s.sched = .command port w payload :: rest → decode (portOfExt port) w payload = .error r →
    step s = runCommand port w payload { s with sched := rest } ∧
    step s = .next { s with
      sched := rest
      csr := { s.csr with sticky := { s.csr.sticky with illegal := true } }
      replies := ⟨portOfExt port, responseWord .illegal 0, []⟩ :: s.replies }) ∧
  (∀ (s : State) (w : Word) (rest : List Event) (r : Reject),
    s.sched = .worker :: rest → s.seq.wstate = .active → s.rom[s.seq.upc]? = some w → decode .w w [] = .error r →
    step s = .next { s with
      sched := rest
      csr := { s.csr with sticky := { s.csr.sticky with illegal := true } }
      replies := ⟨.w, responseWord .illegal 0, []⟩ :: s.replies }) ∧
  (∀ (s : State) (rest : List Event),
    s.sched = .worker :: rest → s.seq.wstate = .active → s.rom[s.seq.upc]? = none →
    step s = .fault (.romAddress s.seq.upc)) ∧
  (∀ (s : State) (rest : List Event), s.sched = .control :: rest → step s = runControl { s with sched := rest }) ∧
  (∀ (s : State) (q : QueueSel) (cv pv : Nat) (rest : List Event),
    s.sched = .sync q cv pv :: rest → step s = runSync q cv pv { s with sched := rest }) ∧
  (∀ (s : State) (e : Event) (rest : List Event), s.sched = e :: rest → step s = runEvent e { s with sched := rest }) ∧
  (∀ s : State, s.sched = [] → s.ses.sess = .stopping → s.seq.wstate = .exited → step s = runControl s) ∧
  (∀ (s : State) (q : QueueSel) (cv pv : Nat), s.sched = [] → internalTurn s = some (.sync q cv pv) →
    step s = runSync q cv pv s) ∧
  (∀ s : State, s.sched = [] → internalTurn s = none → step s = .next s)

/-- The word placed by withFetchWord is the one the next step runs: on the port that accepts it as it stands, or as the
worker's next micro-operation (the placing is the model's, notes/assumptions/22.md). -/
def Obligations.PlacedWordRunsNext : Prop :=
  ∀ (s : State) (nbits w : Nat) (i : Instr), decodeTableWord nbits w = some i →
    (i.port ≠ .w → step (s.withFetchWord nbits w) = exec i s) ∧
    (i.port = .w → ∃ rom : List Word, rom[s.seq.upc]? = some (encodeWord i) ∧
      step (s.withFetchWord nbits w) = exec i { s with rom := rom, seq := { s.seq with wstate := .active } })

/-! ### The Sample Queues -/

/-- QueueWrite on any queue: closed, nothing changes; open, the first a = min (k, pv) samples are appended to what the
queue holds, the cursor, count and views move as 40_queue R172 says, and the status is QFULL exactly when a < k. -/
def Obligations.QueueWriteAppendsAcceptedPrefix : Prop :=
  ∀ (α : Type) (free : Nat → α) (view : QueueView) (cap : Nat) (q : Queue α) (data : List α), QueueInv view cap q →
    let r := queueWrite view cap q data
    let a := min data.length q.pv
    (q.isOpen = false → r.status = .closed ∧ r.accepted = 0 ∧ r.queue = q) ∧
    (q.isOpen = true →
      r.accepted = a ∧ r.status = (if a < data.length then .qfull else .ok) ∧
      r.queue.items free cap = q.items free cap ++ data.take a ∧
      (∀ i, i < a → r.queue.buf.read ((q.wr + i) % cap) = data[i]?) ∧
      (∀ k, (∀ i, i < a → (q.wr + i) % cap ≠ k) → r.queue.buf.read k = q.buf.read k) ∧
      r.queue.wr = (q.wr + a) % cap ∧ r.queue.rd = q.rd ∧ r.queue.avail = q.avail + a ∧ r.queue.isOpen = true ∧
      r.queue.pv = q.pv - a ∧ r.queue.cv = (if view = .exact then q.avail + a else q.cv))

/-- QueueRead on any queue: closed, nothing changes; open, the oldest r = min (max, cv) samples are returned and removed,
never more than asked for nor than the queue holds (40_queue R181, R182, R184). -/
def Obligations.QueueReadRemovesOldest : Prop :=
  ∀ (α : Type) (free : Nat → α) (view : QueueView) (cap : Nat) (q : Queue α) (max : Nat), QueueInv view cap q →
    let r := queueRead free view cap q max
    let k := min max q.cv
    (q.isOpen = false → r.status = .closed ∧ r.out = [] ∧ r.queue = q) ∧
    (q.isOpen = true →
      r.status = .ok ∧ r.out = (q.items free cap).take k ∧ r.queue.items free cap = (q.items free cap).drop k ∧
      r.out.length = k ∧ k ≤ max ∧ k ≤ q.avail ∧
      r.queue.buf = q.buf ∧ r.queue.wr = q.wr ∧ r.queue.rd = (q.rd + k) % cap ∧ r.queue.avail = q.avail - k ∧
      r.queue.isOpen = true ∧ r.queue.cv = q.cv - k ∧
      r.queue.pv = (if view = .exact then cap - (q.avail - k) else q.pv))

/-- From the creation of a queue on, whatever writes, reads, openings, closings and steps of Y follow, the samples accepted
are exactly the samples returned followed by the samples still held, in order, and the queue's invariant holds: no sample
is duplicated, reordered, invented or lost (20_memory R113, 40_queue R195). -/
def Obligations.QueueIsFirstInFirstOut : Prop :=
  ∀ (α : Type) (free : Nat → α) (view : QueueView) (cap : Nat) (q : Queue α) (ops : List (QueueOp α)),
    0 < cap → QueueInv view cap q →
    let r := ops.foldl (QueueOp.run free view cap) ⟨q.created cap, [], []⟩
    r.accepted = r.returned ++ r.queue.items free cap ∧ r.queue.avail ≤ cap ∧ QueueInv view cap r.queue

/-- QWRITE IQ: QueueWrite on IQ; on QFULL the two drop counters and ERR_QFULL_IN; nothing else changes (40_queue R170,
R176). -/
def Obligations.QwriteIqEffect : Prop :=
  ∀ (block : List C32) (s : State),
    let r := queueWrite s.cfg.queueView s.cfg.capIn s.iq block
    exec (.qwriteIq block) s = .next { s with
      iq := r.queue
      csr :=
        if r.status = .qfull then { s.csr with
          cntQfullIn := s.csr.cntQfullIn + 1
          cntDropIn := s.csr.cntDropIn + BitVec.ofNat 32 (block.length - r.accepted)
          sticky := { s.csr.sticky with qfullIn := true } }
        else s.csr
      replies := ⟨.p, responseWord r.status r.accepted, []⟩ :: s.replies }

/-- QWRITE OQ, AU, L: QueueWrite on OQ of the first n elements of AU; on QFULL the two drop counters and ERR_QFULL_OUT; the
worker goes on whatever the status, and nothing else changes (40_queue R177). -/
def Obligations.QwriteOqEffect : Prop :=
  ∀ (len : Len) (s : State), s.len len ≤ s.cfg.nmax →
    ∃ data : List F32, data.length = s.len len ∧
      (∀ (k : Nat) (v : F32), k < s.len len → s.buf.au.read k = some v → data[k]? = some v) ∧
      let r := queueWrite s.cfg.queueView s.cfg.capOut s.oq data
      exec (.qwriteOq len) s = .next { s with
        oq := r.queue
        csr :=
          if r.status = .qfull then { s.csr with
            cntQfullOut := s.csr.cntQfullOut + 1
            cntDropOut := s.csr.cntDropOut + BitVec.ofNat 32 (s.len len - r.accepted)
            sticky := { s.csr.sticky with qfullOut := true } }
          else s.csr
        seq := { s.seq with upc := s.seq.upc + 1 }
        replies := ⟨.w, responseWord r.status r.accepted, []⟩ :: s.replies }

/-- QREAD IQ, buf, L: the samples QueueRead returns replace the buffer's first elements and no other, `short` says whether
they are fewer than asked for, and nothing else but IQ changes (40_queue R180, R183). -/
def Obligations.QreadEffect : Prop :=
  ∀ (dst : CBuf) (len : Len) (s : State), s.len len ≤ s.cfg.nmax →
    let r := queueRead (Config.unwrittenComplex .iq) s.cfg.queueView s.cfg.capIn s.iq (s.len len)
    ∃ m : Memory C32,
      exec (.qread dst len) s = .next ({ s with
        iq := r.queue
        seq := { s.seq with upc := s.seq.upc + 1, short := decide (r.out.length < s.len len) }
        replies := ⟨.w, responseWord r.status r.out.length, []⟩ :: s.replies }.setCbuf dst m) ∧
      (∀ k, k < r.out.length → m.read k = r.out[k]?) ∧
      (∀ k, r.out.length ≤ k → m.read k = (s.cbuf dst).read k)

/-- QAVAIL answers the true count; QOPEN opens the queue in a running session and is BUSY outside one; QCLOSE closes it;
contents and cursors do not change, nor anything else, and bit 3 or 4 of STATUS follows (40_queue R185, R188, R191). -/
def Obligations.QueueHostCommands : Prop :=
  ∀ (s : State),
    exec (.qavail .iq) s = .next { s with replies := ⟨.h, responseWord .ok s.iq.avail, []⟩ :: s.replies } ∧
    exec (.qavail .oq) s = .next { s with replies := ⟨.h, responseWord .ok s.oq.avail, []⟩ :: s.replies } ∧
    (∀ q, s.ses.sess ≠ .running →
      exec (.qopen q) s = .next { s with replies := ⟨.h, responseWord .busy 0, []⟩ :: s.replies }) ∧
    (s.ses.sess = .running →
      exec (.qopen .iq) s = .next { s with
        iq := { s.iq with isOpen := true }
        replies := ⟨.h, responseWord .ok 0, []⟩ :: s.replies } ∧
      exec (.qopen .oq) s = .next { s with
        oq := { s.oq with isOpen := true }
        replies := ⟨.h, responseWord .ok 0, []⟩ :: s.replies }) ∧
    exec (.qclose .iq) s = .next { s with
      iq := { s.iq with isOpen := false }
      replies := ⟨.h, responseWord .ok 0, []⟩ :: s.replies } ∧
    exec (.qclose .oq) s = .next { s with
      oq := { s.oq with isOpen := false }
      replies := ⟨.h, responseWord .ok 0, []⟩ :: s.replies } ∧
    (statusWord s).getLsbD 3 = s.iq.isOpen ∧ (statusWord s).getLsbD 4 = s.oq.isOpen

/-! ### Session control -/

/-- ACQ_START: BUSY outside STOPPED; CONFIG_ERROR with the check's cause; else a session begun as 46_control R330 lists it,
the window's first N elements computed and no other element holding a value (10_state R63, 43_spectrum R261), no counter, no
power buffer and no register changed (46_control R331, R332); the working buffers hold no value until the worker writes them (10_state R64). That the queues' storage keeps its
contents, and the count by which the working buffers' free contents are told apart, is the model's (notes/assumptions/19.md). -/
def Obligations.AcqStartOutcomes : Prop :=
  ∀ s : State,
    (s.ses.sess ≠ .stopped →
      exec .acqStart s = .next { s with replies := ⟨.h, responseWord .busy 0, []⟩ :: s.replies }) ∧
    (s.ses.sess = .stopped → s.configCheck ≠ 0 →
      exec .acqStart s = .next { s with
        csr := { s.csr with sticky := { s.csr.sticky with config := true }, cfgCause := BitVec.ofNat 4 s.configCheck }
        replies := ⟨.h, responseWord .configError 0, []⟩ :: s.replies }) ∧
    (s.ses.sess = .stopped → s.configCheck = 0 →
      ∃ win : Memory F32,
        exec .acqStart s = .next { s with
          iq := { s.iq with wr := 0, rd := 0, avail := 0, isOpen := true, cv := 0, pv := s.cfg.capIn }
          oq := { s.oq with wr := 0, rd := 0, avail := 0, isOpen := true, cv := 0, pv := s.cfg.capOut }
          buf := { s.buf with
            wb := [], db := [], nb := [], au := [], epoch := s.buf.epoch + 1
            win := win, winLen := s.csr.nFft.toNat }
          dsp :=
            { dec0 := some ⟨List.replicate (s.cfg.h0.length - 1) ⟨0, 0⟩, 0⟩
              dec1 := some ⟨List.replicate (s.cfg.h1.length - 1) 0, 0⟩
              lpf := some (List.replicate (s.cfg.h2.length - 1) 0)
              fm := some ⟨0, 0⟩ }
          seq := { s.seq with wstate := .active, upc := 0, short := false }
          ses :=
            { sess := .running
              stopReq := false
              sN := s.csr.nFft.toNat
              sD := s.csr.decD.toNat
              sD2 := s.csr.audD2.toNat
              sM := s.csr.nFft.toNat / s.csr.decD.toNat
              sK := s.csr.nFft.toNat / s.csr.decD.toNat / s.csr.audD2.toNat }
          replies := ⟨.h, responseWord .ok 0, []⟩ :: s.replies } ∧
        (∀ n, n < s.csr.nFft.toNat → win.read n = some (Config.windowFn n s.csr.nFft.toNat)) ∧
        (∀ n, s.csr.nFft.toNat ≤ n → win.read n = none))

/-- ConfigCheck answers the first cause of 46_control R333 that holds, and 0 exactly when none does. -/
def Obligations.ConfigCheckFirstCause : Prop :=
  ∀ s : State,
    let n := s.csr.nFft.toNat
    let d := s.csr.decD.toNat
    let d2 := s.csr.audD2.toNat
    let rate := if d * d2 = 0 then 0 else s.csr.inRate.toNat / (d * d2)
    let pull := rate * s.csr.audioBufMs.toNat / 1000
    let causes : List Prop :=
      [ (∀ j, n ≠ 2 ^ j) ∨ n < 2 ∨ s.cfg.nmax < n
      , d = 0 ∨ n % d ≠ 0
      , n / d < 2
      , d2 = 0 ∨ n / d % d2 ≠ 0
      , s.cfg.capIn < n
      , s.cfg.capOut < n / d / d2
      , s.csr.inRate.toNat = 0
      , s.csr.audioBufMs.toNat = 0 ∨ pull = 0 ∨ s.cfg.capOut < pull ]
    (s.configCheck = 0 ↔ ∀ c ∈ causes, ¬ c) ∧
    (∀ k, k < 8 → (s.configCheck = k + 1 ↔
      (∃ c, causes[k]? = some c ∧ c) ∧ ∀ (j : Nat) (c : Prop), j < k → causes[j]? = some c → ¬ c))

/-- After a successful ACQ_START every session quantity is as 46_control R335 says. -/
def Obligations.StartedSessionIsWellFormed : Prop :=
  ∀ s t : State, s.ses.sess = .stopped → s.configCheck = 0 → exec .acqStart s = .next t →
    (∃ j, 1 ≤ j ∧ t.ses.sN = 2 ^ j) ∧ (∃ j, 1 ≤ j ∧ t.ses.sM = 2 ^ j) ∧
    t.ses.sN ≤ t.cfg.nmax ∧ t.ses.sM * t.ses.sD = t.ses.sN ∧ t.ses.sK * t.ses.sD2 = t.ses.sM ∧
    1 ≤ t.ses.sK ∧ t.ses.sK ≤ t.ses.sM ∧ t.ses.sM ≤ t.ses.sN ∧
    t.ses.sN ≤ t.cfg.capIn ∧ t.ses.sK ≤ t.cfg.capOut ∧ t.buf.winLen = t.ses.sN

/-- With the reset values of the configuration registers and an IN_RATE of r, a start succeeds exactly under the conditions
of 70_reset R416. -/
def Obligations.ResetConfigurationStarts : Prop :=
  ∀ (p : Params) (r : Word), ValidParams p →
    let s : State := { State.resetOf p with csr := { Csrs.reset with inRate := r } }
    (∃ t, exec .acqStart s = .next t ∧ t.ses.sess = .running) ↔
      16384 ≤ p.nmax ∧ 16384 ≤ p.capIn ∧ 512 ≤ p.capOut ∧ 1 ≤ r.toNat ∧
      1 ≤ r.toNat / 32 * 100 / 1000 ∧ r.toNat / 32 * 100 / 1000 ≤ p.capOut

/-- ACQ_STOP and DEV_FAULT begin the stop sequence of a running session: the stop signal is set, both queues are closed and
the session is STOPPING; outside a running session neither changes the session, and DEV_FAULT always sets ERR_DEVFAULT
(46_control R340, R360). -/
def Obligations.StopCommandsEffect : Prop :=
  ∀ s : State,
    (s.ses.sess = .running →
      exec .acqStop s = .next { s with
        iq := { s.iq with isOpen := false }
        oq := { s.oq with isOpen := false }
        ses := { s.ses with stopReq := true, sess := .stopping }
        replies := ⟨.h, responseWord .ok 0, []⟩ :: s.replies } ∧
      exec .devFault s = .next { s with
        iq := { s.iq with isOpen := false }
        oq := { s.oq with isOpen := false }
        ses := { s.ses with stopReq := true, sess := .stopping }
        csr := { s.csr with sticky := { s.csr.sticky with devfault := true } }
        replies := ⟨.p, responseWord .deviceFault 0, []⟩ :: s.replies }) ∧
    (s.ses.sess ≠ .running →
      exec .acqStop s = .next { s with replies := ⟨.h, responseWord .ok 0, []⟩ :: s.replies } ∧
      exec .devFault s = .next { s with
        csr := { s.csr with sticky := { s.csr.sticky with devfault := true } }
        replies := ⟨.p, responseWord .deviceFault 0, []⟩ :: s.replies })

/-- The stop completion is enabled exactly when the session is STOPPING and the worker has EXITED, and then, in one step,
destroys both queues, makes the filters and the demodulator ABSENT, and returns the sequencer and the session to rest;
everything else keeps its value (46_control R346), but for the working buffers, which hold no value outside a cycle
(10_state R64). That the queues' storage keeps its contents, and the count by which the working buffers' free contents are
told apart, is the model's (notes/assumptions/19.md), and so is that a turn of the control unit while the completion is not
enabled changes nothing (notes/assumptions/3.md). -/
def Obligations.StopCompletionEffect : Prop :=
  ∀ s : State,
    (s.ses.sess = .stopping ∧ s.seq.wstate = .exited →
      runControl s = .next { s with
        iq := { s.iq with wr := 0, rd := 0, avail := 0, isOpen := false, cv := 0, pv := s.cfg.capIn }
        oq := { s.oq with wr := 0, rd := 0, avail := 0, isOpen := false, cv := 0, pv := s.cfg.capOut }
        buf := { s.buf with wb := [], db := [], nb := [], au := [], epoch := s.buf.epoch + 1 }
        dsp := { dec0 := none, dec1 := none, lpf := none, fm := none }
        ses := { s.ses with stopReq := false, sess := .stopped }
        seq := { s.seq with short := false, upc := 0, wstate := .off } }) ∧
    (¬ (s.ses.sess = .stopping ∧ s.seq.wstate = .exited) → runControl s = .next s)

/-- Session transitions, by state and event, as the table of 46_control R365; every other command and every other agent
leaves the session state unchanged, a turn of the control unit without a step by the model's choice (notes/assumptions/3.md). -/
def Obligations.SessionTransitions : Prop :=
  ∀ s : State,
    (∀ (i : Instr) (t : State), exec i s = .next t →
      t.ses.sess =
        if i = .acqStart ∧ s.ses.sess = .stopped ∧ s.configCheck = 0 then .running
        else if (i = .acqStop ∨ i = .devFault) ∧ s.ses.sess = .running then .stopping
        else s.ses.sess) ∧
    (∀ t : State, runControl s = .next t →
      t.ses.sess = if s.ses.sess = .stopping ∧ s.seq.wstate = .exited then .stopped else s.ses.sess) ∧
    (∀ (q : QueueSel) (cv pv : Nat) (t : State), runSync q cv pv s = .next t → t.ses = s.ses) ∧
    (s.ses.stopReq = true → ∃ t, exec .seqTop s = .next t ∧ t.seq.wstate = .exited ∧ t.ses = s.ses)

/-! ### Registers -/

/-- CSR_READ of every assigned address answers the register's content and changes nothing; of every other address it
answers ADDR_ERROR and sets ERR_ADDR only (46_control R350, R352; 10_state R50; 20_memory R104, R105). -/
def Obligations.CsrReadMap : Prop :=
  ∀ s : State,
    let map : List (BitVec 12 × Word) :=
      [ (0x000, 0x52530701), (0x004, BitVec.ofNat 32 s.csr.winEn.toNat), (0x008, statusWord s)
      , (0x00C, s.csr.nFft), (0x010, s.csr.decD), (0x014, s.csr.audD2), (0x018, s.csr.inRate)
      , (0x01C, if s.csr.decD = 0 then 0 else s.csr.inRate / s.csr.decD)
      , (0x020, if s.csr.decD = 0 ∨ s.csr.audD2 = 0 then 0
                else BitVec.ofNat 32 (s.csr.inRate.toNat / (s.csr.decD.toNat * s.csr.audD2.toNat)))
      , (0x024, s.csr.audioBufMs), (0x028, s.csr.gainConst), (0x02C, s.csr.userOffset), (0x030, s.csr.specScale)
      , (0x034, s.csr.dispRange), (0x038, s.csr.wbOffset), (0x03C, s.csr.nbOffset)
      , (0x040, BitVec.ofNat 32 s.cfg.capIn), (0x044, BitVec.ofNat 32 s.iq.avail), (0x048, BitVec.ofNat 32 s.iq.wr)
      , (0x04C, BitVec.ofNat 32 s.iq.rd), (0x050, BitVec.ofNat 32 s.cfg.capOut), (0x054, BitVec.ofNat 32 s.oq.avail)
      , (0x058, BitVec.ofNat 32 s.oq.wr), (0x05C, BitVec.ofNat 32 s.oq.rd)
      , (0x060, s.csr.cntQfullIn), (0x064, s.csr.cntDropIn), (0x068, s.csr.cntQfullOut), (0x06C, s.csr.cntDropOut)
      , (0x070, s.csr.cntUnderrun), (0x074, s.csr.cntCycles), (0x078, s.cfg.audioGain)
      , (0x07C, BitVec.ofNat 32 s.buf.lastLenWb), (0x080, BitVec.ofNat 32 s.buf.lastLenNb)
      , (0x084, BitVec.ofNat 32 s.cfg.nmax) ]
    (∀ e ∈ map, exec (.csrRead e.1) s = .next { s with
      replies := ⟨.h, responseWord .ok 0, [e.2]⟩ :: s.replies }) ∧
    (∀ addr : BitVec 12, (∀ e ∈ map, e.1 ≠ addr) →
      exec (.csrRead addr) s = .next { s with
        csr := { s.csr with sticky := { s.csr.sticky with addr := true } }
        replies := ⟨.h, responseWord .addrError 0, []⟩ :: s.replies })

/-- CSR_WRITE, its checks in order: an unassigned or misaligned address sets ERR_ADDR only, an RO register ERR_ILLEGAL
only, an RW-stopped register outside STOPPED nothing; otherwise exactly the addressed register takes its new value
(46_control R355 to R357, 60_exceptions R383). -/
def Obligations.CsrWriteEffect : Prop :=
  ∀ (s : State) (v : Word),
    let ok (c : Csrs) : Result := .next { s with csr := c, replies := ⟨.h, responseWord .ok 0, []⟩ :: s.replies }
    (∀ addr : BitVec 12, addr.extractLsb' 0 2 ≠ 0 ∨ 0x084 < addr →
      exec (.csrWrite addr v) s = .next { s with
        csr := { s.csr with sticky := { s.csr.sticky with addr := true } }
        replies := ⟨.h, responseWord .addrError 0, []⟩ :: s.replies }) ∧
    (∀ addr ∈ ([0x000, 0x01C, 0x020, 0x038, 0x03C, 0x040, 0x044, 0x048, 0x04C, 0x050, 0x054, 0x058, 0x05C, 0x078,
        0x07C, 0x080, 0x084] : List (BitVec 12)),
      exec (.csrWrite addr v) s = .next { s with
        csr := { s.csr with sticky := { s.csr.sticky with illegal := true } }
        replies := ⟨.h, responseWord .illegal 0, []⟩ :: s.replies }) ∧
    (s.ses.sess ≠ .stopped → ∀ addr ∈ ([0x00C, 0x010, 0x014, 0x018, 0x024, 0x028] : List (BitVec 12)),
      exec (.csrWrite addr v) s = .next { s with replies := ⟨.h, responseWord .busy 0, []⟩ :: s.replies }) ∧
    (s.ses.sess = .stopped →
      exec (.csrWrite 0x00C v) s = ok { s.csr with nFft := v } ∧
      exec (.csrWrite 0x010 v) s = ok { s.csr with decD := v } ∧
      exec (.csrWrite 0x014 v) s = ok { s.csr with audD2 := v } ∧
      exec (.csrWrite 0x018 v) s = ok { s.csr with inRate := v } ∧
      exec (.csrWrite 0x024 v) s = ok { s.csr with audioBufMs := v } ∧
      exec (.csrWrite 0x028 v) s = ok { s.csr with gainConst := v }) ∧
    exec (.csrWrite 0x004 v) s = ok { s.csr with winEn := v.getLsbD 0 } ∧
    exec (.csrWrite 0x008 v) s = ok { s.csr with
      sticky :=
        { qfullIn := s.csr.sticky.qfullIn && !v.getLsbD 8
          qfullOut := s.csr.sticky.qfullOut && !v.getLsbD 9
          underrun := s.csr.sticky.underrun && !v.getLsbD 10
          devfault := s.csr.sticky.devfault && !v.getLsbD 11
          config := s.csr.sticky.config && !v.getLsbD 12
          illegal := s.csr.sticky.illegal && !v.getLsbD 13
          addr := s.csr.sticky.addr && !v.getLsbD 14 }
      cfgCause := if v.getLsbD 12 then 0 else s.csr.cfgCause } ∧
    exec (.csrWrite 0x02C v) s = ok { s.csr with userOffset := v } ∧
    exec (.csrWrite 0x030 v) s = ok { s.csr with specScale := v } ∧
    exec (.csrWrite 0x034 v) s = ok { s.csr with dispRange := v } ∧
    exec (.csrWrite 0x060 v) s = ok { s.csr with cntQfullIn := 0 } ∧
    exec (.csrWrite 0x064 v) s = ok { s.csr with cntDropIn := 0 } ∧
    exec (.csrWrite 0x068 v) s = ok { s.csr with cntQfullOut := 0 } ∧
    exec (.csrWrite 0x06C v) s = ok { s.csr with cntDropOut := 0 } ∧
    exec (.csrWrite 0x070 v) s = ok { s.csr with cntUnderrun := 0 } ∧
    exec (.csrWrite 0x074 v) s = ok { s.csr with cntCycles := 0 }

/-- Every bit of STATUS as read, and what a write of v leaves of each: bits 8 to 14 are cleared by ones, CFG_CAUSE with
bit 12, and no other bit changes (10_state R53, 46_control R351). -/
def Obligations.StatusBits : Prop :=
  (∀ (s : State) (i : Nat), (statusWord s).getLsbD i =
    match i with
    | 0 => decide (s.ses.sess ≠ .stopped)
    | 1 => decide (s.ses.sess = .stopping)
    | 2 => decide (s.seq.wstate = .active)
    | 3 => s.iq.isOpen
    | 4 => s.oq.isOpen
    | 5 => s.buf.wbValid
    | 6 => s.buf.nbValid
    | 8 => s.csr.sticky.qfullIn
    | 9 => s.csr.sticky.qfullOut
    | 10 => s.csr.sticky.underrun
    | 11 => s.csr.sticky.devfault
    | 12 => s.csr.sticky.config
    | 13 => s.csr.sticky.illegal
    | 14 => s.csr.sticky.addr
    | 16 => s.csr.cfgCause.getLsbD 0
    | 17 => s.csr.cfgCause.getLsbD 1
    | 18 => s.csr.cfgCause.getLsbD 2
    | 19 => s.csr.cfgCause.getLsbD 3
    | _ => false) ∧
  (∀ (s t : State) (v : Word) (i : Nat), exec (.csrWrite 0x008 v) s = .next t →
    (statusWord t).getLsbD i =
      if 8 ≤ i ∧ i ≤ 14 then (statusWord s).getLsbD i && !v.getLsbD i
      else if 16 ≤ i ∧ i ≤ 19 then (statusWord s).getLsbD i && !v.getLsbD 12
      else (statusWord s).getLsbD i)

/-- After reset every piece of state has the value of 10_state R90, every register the reset value of R50, and no element of
a storage holds a value; read through the accessors, neither Power Spectrum Buffer is valid. -/
def Obligations.ResetState : Prop :=
  ∀ p : Params,
    let s := State.resetOf p
    s.cfg = p ∧
    s.ses = { sess := .stopped, stopReq := false, sN := 0, sD := 0, sD2 := 0, sM := 0, sK := 0 } ∧
    s.seq = { wstate := .off, upc := 0, short := false, latWin := false, latUo := 0x00000000 } ∧
    s.iq = { buf := [], wr := 0, rd := 0, avail := 0, isOpen := false, cv := 0, pv := p.capIn } ∧
    s.oq = { buf := [], wr := 0, rd := 0, avail := 0, isOpen := false, cv := 0, pv := p.capOut } ∧
    s.dsp = { dec0 := none, dec1 := none, lpf := none, fm := none } ∧
    s.buf.winLen = 0 ∧ s.buf.wbValid = false ∧ s.buf.nbValid = false ∧ s.buf.lastLenWb = 0 ∧ s.buf.lastLenNb = 0 ∧
    (∀ i, s.buf.wb.read i = none ∧ s.buf.db.read i = none ∧ s.buf.nb.read i = none ∧ s.buf.au.read i = none ∧
      s.buf.pwWb.read i = none ∧ s.buf.pwNb.read i = none ∧ s.buf.win.read i = none) ∧
    (∀ b : PowerBuf, s.powerValid b = false ∧ s.powerLen b = 0) ∧
    statusWord s = 0x00000000 ∧
    ([Csr.id, .ctrl, .status, .nFft, .decD, .audD2, .inRate, .outRate, .audRate, .audioBufMs, .gainConst, .userOffset,
      .specScale, .dispRange, .wbOffset, .nbOffset].map s.csrValue) =
      [0x52530701, 0x00000000, 0x00000000, 0x00004000, 0x00000008, 0x00000004, 0x00000000, 0x00000000, 0x00000000,
       0x00000064, 0x41C00000, 0x00000000, 0x3F800000, 0x00000000, 0x00000000, 0x00000000] ∧
    ([Csr.iqCap, .iqAvail, .iqWr, .iqRd, .oqCap, .oqAvail, .oqWr, .oqRd, .cntQfullIn, .cntDropIn, .cntQfullOut,
      .cntDropOut, .cntUnderrun, .cntCycles, .audioGain, .lastLenWb, .lastLenNb, .nmax].map s.csrValue) =
      [BitVec.ofNat 32 p.capIn, 0, 0, 0, BitVec.ofNat 32 p.capOut, 0, 0, 0, 0, 0, 0, 0, 0, 0, p.audioGain, 0, 0,
       BitVec.ofNat 32 p.nmax]

/-! ### The boundary ports -/

/-- AUD_PULL #F: from a closed queue 2F silent words with CLOSED and no other change; with F samples in view, each scaled
and doubled, and exactly those removed; else an underrun: 2F silent words, CNT_UNDERRUN and ERR_UNDERRUN, and the samples
in view kept or discarded by the parameter (45_ports R310 to R314). -/
def Obligations.AudPullOutcomes : Prop :=
  ∀ (frames : Nat) (s : State), s.oq.cv ≤ s.oq.avail →
    (s.oq.isOpen = false →
      exec (.audPull frames) s = .next { s with
        replies := ⟨.a, responseWord .closed frames, List.replicate (2 * frames) 0x00000000⟩ :: s.replies }) ∧
    (s.oq.isOpen = true → frames ≤ s.oq.cv →
      exec (.audPull frames) s = .next { s with
        oq := { s.oq with
          rd := (s.oq.rd + frames) % s.cfg.capOut
          avail := s.oq.avail - frames
          cv := s.oq.cv - frames
          pv := if s.cfg.queueView = .exact then s.cfg.capOut - (s.oq.avail - frames) else s.oq.pv }
        replies := ⟨.a, responseWord .ok frames,
          (s.oqItems.take frames).flatMap fun x => [mul32 s.cfg.audioGain x, mul32 s.cfg.audioGain x]⟩ :: s.replies }) ∧
    (s.oq.isOpen = true → s.oq.cv < frames →
      exec (.audPull frames) s = .next { s with
        oq :=
          if s.cfg.underrunConsume = .discard then { s.oq with
            rd := (s.oq.rd + s.oq.cv) % s.cfg.capOut
            avail := s.oq.avail - s.oq.cv
            cv := 0
            pv := if s.cfg.queueView = .exact then s.cfg.capOut - (s.oq.avail - s.oq.cv) else s.oq.pv }
          else s.oq
        csr := { s.csr with
          cntUnderrun := s.csr.cntUnderrun + 1
          sticky := { s.csr.sticky with underrun := true } }
        replies := ⟨.a, responseWord .underrun frames, List.replicate (2 * frames) 0x00000000⟩ :: s.replies })

/-- A pull from an empty Output Sample Queue answers, in one step and in every state, exactly 2F words, all of them +0.0
(45_ports R316). -/
def Obligations.EmptyPullIsSilence : Prop :=
  ∀ (frames : Nat) (s : State), s.oq.avail = 0 → s.oq.cv ≤ s.oq.avail →
    ∃ (t : State) (w : Word) (data : List Word), exec (.audPull frames) s = .next t ∧
      t.replies = ⟨.a, w, data⟩ :: s.replies ∧ data.length = 2 * frames ∧ ∀ x ∈ data, x = 0x00000000

/-- SNAP_READ: NOT_READY while wb_valid or nb_valid of the buffer is 0, so before its first commit; ADDR_ERROR with
ERR_ADDR for more bins than the last commit wrote; else the first c bins as stored, c the whole commit for a count of 0;
nothing else changes (45_ports R318, R320, R321; 10_state R62). -/
def Obligations.SnapReadOutcomes : Prop :=
  ∀ (p : PowerBuf) (count : Nat) (s : State),
    let valid := match p with
      | .wide => s.buf.wbValid
      | .narrow => s.buf.nbValid
    let lastLen := match p with
      | .wide => s.buf.lastLenWb
      | .narrow => s.buf.lastLenNb
    let bins := match p with
      | .wide => s.buf.pwWb
      | .narrow => s.buf.pwNb
    let c := if count = 0 then lastLen else count
    (valid = false →
      exec (.snapRead p count) s = .next { s with replies := ⟨.s, responseWord .notReady 0, []⟩ :: s.replies }) ∧
    (valid = true → lastLen < c →
      exec (.snapRead p count) s = .next { s with
        csr := { s.csr with sticky := { s.csr.sticky with addr := true } }
        replies := ⟨.s, responseWord .addrError 0, []⟩ :: s.replies }) ∧
    (valid = true → c ≤ lastLen →
      ∃ data : List Word, data.length = c ∧
        (∀ (k : Nat) (v : F32), k < c → bins.read k = some v → data[k]? = some v) ∧
        exec (.snapRead p count) s = .next { s with replies := ⟨.s, responseWord .ok c, data⟩ :: s.replies })

/-- A snapshot returns the bins of the last commit: no command but SPEC_POWER to that buffer, and no other agent, changes
its bins, its length or its flag, and a snapshot taken while they stand as a SPEC_POWER left them answers exactly the bins
it committed (20_memory R115, 45_ports R319, 10_state R62). -/
def Obligations.SnapshotReturnsLastCommit : Prop :=
  (∀ (i : Instr) (p : PowerBuf) (s t : State), exec i s = .next t → (∀ src len, i ≠ .specPower src p len) →
    t.powerBins p = s.powerBins p ∧ t.powerLen p = s.powerLen p ∧ t.powerValid p = s.powerValid p) ∧
  (∀ (p : PowerBuf) (s t : State) (q : QueueSel) (cv pv : Nat), runControl s = .next t ∨ runSync q cv pv s = .next t →
    t.powerBins p = s.powerBins p ∧ t.powerLen p = s.powerLen p ∧ t.powerValid p = s.powerValid p) ∧
  (∀ (src : CBuf) (p : PowerBuf) (len : Len) (s t u : State),
    s.len len ≤ s.cfg.nmax → exec (.specPower src p len) s = .next t →
    u.powerBins p = t.powerBins p → u.powerLen p = t.powerLen p → u.powerValid p = t.powerValid p →
    exec (.snapRead p 0) u = .next { u with
      replies := ⟨.s, responseWord .ok (s.len len),
        (s.readC src (s.len len)).map fun x =>
          add32 (numDb (add32 (mul32 x.re x.re) (mul32 x.im x.im))) (s.powerOffset p)⟩ :: u.replies })

/-! ### The worker's micro-operations -/

/-- A micro-operation whose length exceeds NMAX is refused before any access (30_encoding R146); that the refusal is
answered as an illegal command and leaves upc is the model's reading (notes/assumptions/10.md, 11.md). -/
def Obligations.OversizeLengthRefused : Prop :=
  ∀ (s : State) (len : Len) (i : Instr), s.cfg.nmax < s.len len →
    (i = .qwriteOq len ∨ (∃ b, i = .qread b len) ∨ (∃ a b, i = .bufCopy a b len) ∨ (∃ b, i = .winApply b len) ∨
     (∃ b, i = .fftFwd b len) ∨ (∃ a b, i = .specPower a b len) ∨ (∃ a b, i = .decimate0 a b len) ∨
     i = .decimate1 len ∨ (∃ b, i = .fmDemod b len) ∨ i = .lpf len) →
    exec i s = .next { s with
      csr := { s.csr with sticky := { s.csr.sticky with illegal := true } }
      replies := ⟨.w, responseWord .illegal 0, []⟩ :: s.replies }

/-- DECIMATE, LPF and FM_DEMOD while the state they update is ABSENT fault, naming the micro-address, and no other command
faults (41_worker R226). -/
def Obligations.UseAfterTeardownFaults : Prop :=
  ∀ (s : State) (len : Len), s.len len ≤ s.cfg.nmax →
    (∀ a b, s.dsp.dec0 = none → exec (.decimate0 a b len) s = .fault (.useAfterTeardown s.seq.upc)) ∧
    (s.dsp.dec1 = none → exec (.decimate1 len) s = .fault (.useAfterTeardown s.seq.upc)) ∧
    (∀ a, s.dsp.fm = none → exec (.fmDemod a len) s = .fault (.useAfterTeardown s.seq.upc)) ∧
    (s.dsp.lpf = none → exec (.lpf len) s = .fault (.useAfterTeardown s.seq.upc)) ∧
    (∀ i f, exec i s = .fault f → f = .useAfterTeardown s.seq.upc ∧
      ((s.dsp.dec0 = none ∧ ∃ a b l, i = .decimate0 a b l) ∨ (s.dsp.dec1 = none ∧ ∃ l, i = .decimate1 l) ∨
       (s.dsp.fm = none ∧ ∃ a l, i = .fmDemod a l) ∨ (s.dsp.lpf = none ∧ ∃ l, i = .lpf l)))

/-- SEQ_TOP leaves the loop exactly when the stop signal is set, at this address; SEQ_WAIT passes exactly on a stop signal,
a closed IQ or a block in view, and else holds, every piece of state kept; SEQ_JSHORT jumps exactly when `short`; SEQ_END
counts the cycle and returns to 0; none changes anything else (41_worker R210, R212, R218, R224), but that with SEQ_TOP and
SEQ_END the working buffers lose what the cycle wrote (10_state R64); the count by which their free contents are told apart is
the model's (notes/assumptions/19.md). -/
def Obligations.SequencerControl : Prop :=
  ∀ s : State,
    exec .seqTop s = .next { s with
      buf := { s.buf with wb := [], db := [], nb := [], au := [], epoch := s.buf.epoch + 1 }
      seq := if s.ses.stopReq then { s.seq with wstate := .exited } else { s.seq with upc := s.seq.upc + 1 }
      replies := ⟨.w, responseWord .ok 0, []⟩ :: s.replies } ∧
    (s.ses.stopReq = true ∨ s.iq.isOpen = false ∨ s.ses.sN ≤ s.iq.cv →
      exec .seqWait s = .next { s with
        seq := { s.seq with upc := s.seq.upc + 1 }
        replies := ⟨.w, responseWord .ok 0, []⟩ :: s.replies }) ∧
    (s.ses.stopReq = false → s.iq.isOpen = true → s.iq.cv < s.ses.sN → exec .seqWait s = .next s) ∧
    (∀ target, exec (.seqJshort target) s = .next { s with
      seq := { s.seq with upc := if s.seq.short then target else s.seq.upc + 1 }
      replies := ⟨.w, responseWord .ok 0, []⟩ :: s.replies }) ∧
    exec .seqEnd s = .next { s with
      buf := { s.buf with wb := [], db := [], nb := [], au := [], epoch := s.buf.epoch + 1 }
      seq := { s.seq with upc := 0 }
      csr := { s.csr with cntCycles := s.csr.cntCycles + 1 }
      replies := ⟨.w, responseWord .ok 0, []⟩ :: s.replies }

/-- SEQ_LATCH latches WIN_EN and USER_OFFSET and computes both branches' offsets from GAIN_CONST, the exact rationals
sN / 2 and sN / (2 * sD) and the latched USER_OFFSET; nothing else changes (41_worker R216). -/
def Obligations.SeqLatchEffect : Prop :=
  ∀ s : State,
    ∃ rWide rNarrow : Ratio,
      exec .seqLatch s = .next { s with
        seq := { s.seq with latWin := s.csr.winEn, latUo := s.csr.userOffset, upc := s.seq.upc + 1 }
        csr := { s.csr with
          wbOffset := numOffset s.csr.gainConst rWide s.csr.userOffset
          nbOffset := numOffset s.csr.gainConst rNarrow s.csr.userOffset }
        replies := ⟨.w, responseWord .ok 0, []⟩ :: s.replies } ∧
      rWide.num * 2 = s.ses.sN * rWide.den ∧ Nat.Coprime rWide.num rWide.den ∧
      (0 < s.ses.sD →
        rNarrow.num * (2 * s.ses.sD) = s.ses.sN * rNarrow.den ∧ Nat.Coprime rNarrow.num rNarrow.den)

/-- BUF_COPY between c32 buffers: the first n elements of SRC, bit-exactly, become those of DST, every other element and
everything else stays; with SRC = DST, and on AU, nothing changes (41_worker R220; notes/assumptions/20.md). -/
def Obligations.BufCopyEffect : Prop :=
  ∀ (len : Len) (s : State), s.len len ≤ s.cfg.nmax →
    (∀ a b : CBuf, a ≠ b → ∃ m : Memory C32,
      exec (.bufCopy (.complex a) (.complex b) len) s = .next ({ s with
        seq := { s.seq with upc := s.seq.upc + 1 }
        replies := ⟨.w, responseWord .ok 0, []⟩ :: s.replies }.setCbuf b m) ∧
      (∀ (k : Nat) (v : C32), k < s.len len → (s.cbuf a).read k = some v → m.read k = some v) ∧
      (∀ k, s.len len ≤ k → m.read k = (s.cbuf b).read k)) ∧
    (∀ b : WorkBuf, exec (.bufCopy b b len) s = .next { s with
      seq := { s.seq with upc := s.seq.upc + 1 }
      replies := ⟨.w, responseWord .ok 0, []⟩ :: s.replies })

/-- WIN_APPLY: with windowing not latched nothing changes; with it latched and a window of another length, CONFIG_ERROR of
cause 10 and the cycle abandoned; else both lanes of each of the first n samples are multiplied by its coefficient, and
nothing else changes (43_spectrum R260, R261; 41_worker R202). -/
def Obligations.WinApplyOutcomes : Prop :=
  ∀ (dst : CBuf) (len : Len) (s : State), s.len len ≤ s.cfg.nmax →
    (s.seq.latWin = false → exec (.winApply dst len) s = .next { s with
      seq := { s.seq with upc := s.seq.upc + 1 }
      replies := ⟨.w, responseWord .ok 0, []⟩ :: s.replies }) ∧
    (s.seq.latWin = true → s.buf.winLen ≠ s.len len → exec (.winApply dst len) s = .next { s with
      seq := { s.seq with upc := 0 }
      csr := { s.csr with sticky := { s.csr.sticky with config := true }, cfgCause := 10 }
      replies := ⟨.w, responseWord .configError 0, []⟩ :: s.replies }) ∧
    (s.seq.latWin = true → s.buf.winLen = s.len len → ∃ m : Memory C32,
      exec (.winApply dst len) s = .next ({ s with
        seq := { s.seq with upc := s.seq.upc + 1 }
        replies := ⟨.w, responseWord .ok 0, []⟩ :: s.replies }.setCbuf dst m) ∧
      (∀ (k : Nat) (x : C32) (c : F32), k < s.len len → (s.cbuf dst).read k = some x → s.buf.win.read k = some c →
        m.read k = some ⟨mul32 x.re c, mul32 x.im c⟩) ∧
      (∀ k, s.len len ≤ k → m.read k = (s.cbuf dst).read k))

/-- FFT_FWD: of a length 2^j, j at least 1, within NMAX, the transform of the first n elements replaces them, and nothing
else changes; of any other length, CONFIG_ERROR of cause 9 and the cycle abandoned (43_spectrum R265, R267; 41_worker
R202). -/
def Obligations.FftFwdOutcomes : Prop :=
  ∀ (buf : CBuf) (len : Len) (s : State), s.len len ≤ s.cfg.nmax →
    ((∃ j, 1 ≤ j ∧ s.len len = 2 ^ j) → ∃ m : Memory C32,
      exec (.fftFwd buf len) s = .next ({ s with
        seq := { s.seq with upc := s.seq.upc + 1 }
        replies := ⟨.w, responseWord .ok 0, []⟩ :: s.replies }.setCbuf buf m) ∧
      (∀ k, k < s.len len → (m.read k).isSome = true ∧ m.read k = (numDft (s.readC buf (s.len len)))[k]?) ∧
      (∀ k, s.len len ≤ k → m.read k = (s.cbuf buf).read k)) ∧
    ((∀ j, 1 ≤ j → s.len len ≠ 2 ^ j) → exec (.fftFwd buf len) s = .next { s with
      seq := { s.seq with upc := 0 }
      csr := { s.csr with sticky := { s.csr.sticky with config := true }, cfgCause := 9 }
      replies := ⟨.w, responseWord .configError 0, []⟩ :: s.replies })

/-- SPEC_POWER: one commit of n bins, each the decibels of its sample's squared magnitude plus the branch's offset, with the
length and the flag of that buffer; the bins from n on and everything else stay (43_spectrum R270 to R274). -/
def Obligations.SpecPowerEffect : Prop :=
  ∀ (src : CBuf) (len : Len) (s : State), s.len len ≤ s.cfg.nmax →
    (∃ m : Memory F32,
      exec (.specPower src .wide len) s = .next { s with
        buf := { s.buf with pwWb := m, lastLenWb := s.len len, wbValid := true }
        seq := { s.seq with upc := s.seq.upc + 1 }
        replies := ⟨.w, responseWord .ok 0, []⟩ :: s.replies } ∧
      (∀ (k : Nat) (x : C32), k < s.len len → (s.cbuf src).read k = some x →
        m.read k = some (add32 (numDb (add32 (mul32 x.re x.re) (mul32 x.im x.im))) s.csr.wbOffset)) ∧
      (∀ k, s.len len ≤ k → m.read k = s.buf.pwWb.read k)) ∧
    (∃ m : Memory F32,
      exec (.specPower src .narrow len) s = .next { s with
        buf := { s.buf with pwNb := m, lastLenNb := s.len len, nbValid := true }
        seq := { s.seq with upc := s.seq.upc + 1 }
        replies := ⟨.w, responseWord .ok 0, []⟩ :: s.replies } ∧
      (∀ (k : Nat) (x : C32), k < s.len len → (s.cbuf src).read k = some x →
        m.read k = some (add32 (numDb (add32 (mul32 x.re x.re) (mul32 x.im x.im))) s.csr.nbOffset)) ∧
      (∀ k, s.len len ≤ k → m.read k = s.buf.pwNb.read k))

/-- DECIMATE.0 and DECIMATE.1 with their state present: Dec of the first n elements, read in full first, replaces the first
elements of the destination, the instance's state is updated, and nothing else changes; the filter is NUM.fir of the real
taps H1, and of H0 on each lane separately (42_decimator R240, R241, R248, R249). -/
def Obligations.DecimateEffect : Prop :=
  ∀ (len : Len) (s : State), s.len len ≤ s.cfg.nmax →
    (∀ (src dst : CBuf) (st : DecState C32), s.dsp.dec0 = some st →
      let r := decimate (fun w => ⟨numFir s.cfg.h0 (w.map C32.re), numFir s.cfg.h0 (w.map C32.im)⟩)
        s.cfg.h0.length s.ses.sD st (s.readC src (s.len len))
      ∃ m : Memory C32,
        exec (.decimate0 src dst len) s = .next ({ s with
          dsp := { s.dsp with dec0 := some r.2 }
          seq := { s.seq with upc := s.seq.upc + 1 }
          replies := ⟨.w, responseWord .ok 0, []⟩ :: s.replies }.setCbuf dst m) ∧
        (∀ k, k < r.1.length → m.read k = r.1[k]?) ∧
        (∀ k, r.1.length ≤ k → m.read k = (s.cbuf dst).read k)) ∧
    (∀ st : DecState F32, s.dsp.dec1 = some st →
      let r := decimate (fun w => numFir s.cfg.h1 w) s.cfg.h1.length s.ses.sD2 st (s.readAu (s.len len))
      ∃ m : Memory F32,
        exec (.decimate1 len) s = .next { s with
          dsp := { s.dsp with dec1 := some r.2 }
          buf := { s.buf with au := m }
          seq := { s.seq with upc := s.seq.upc + 1 }
          replies := ⟨.w, responseWord .ok 0, []⟩ :: s.replies } ∧
        (∀ k, k < r.1.length → m.read k = r.1[k]?) ∧
        (∀ k, r.1.length ≤ k → m.read k = s.buf.au.read k))

/-- FM_DEMOD with its state present: element i of AU becomes FM_GAIN times the phase of sample i against the sample before
it, the state's sample for the first; the last sample is kept; nothing else changes (44_fm_audio R290, R291). -/
def Obligations.FmDemodEffect : Prop :=
  ∀ (src : CBuf) (len : Len) (s : State) (prev : C32), s.len len ≤ s.cfg.nmax → s.dsp.fm = some prev →
    let xs := s.readC src (s.len len)
    ∃ m : Memory F32,
      exec (.fmDemod src len) s = .next { s with
        dsp := { s.dsp with fm := some (xs.getLastD prev) }
        buf := { s.buf with au := m }
        seq := { s.seq with upc := s.seq.upc + 1 }
        replies := ⟨.w, responseWord .ok 0, []⟩ :: s.replies } ∧
      (∀ (k : Nat) (x y : C32), xs[k]? = some x → (prev :: xs)[k]? = some y →
        m.read k = some (mul32 s.cfg.fmGain (numPhase x y))) ∧
      (∀ k, s.len len ≤ k → m.read k = s.buf.au.read k)

/-- LPF with its state present: element i of AU becomes the filter's sum over the L2 newest samples up to sample i, the
newest L2 - 1 samples are kept, and nothing else changes (44_fm_audio R298). -/
def Obligations.LpfEffect : Prop :=
  ∀ (len : Len) (s : State) (hist : List F32), s.len len ≤ s.cfg.nmax → s.dsp.lpf = some hist →
    1 ≤ s.cfg.h2.length → hist.length = s.cfg.h2.length - 1 →
    let xs := s.readAu (s.len len)
    ∃ m : Memory F32,
      exec (.lpf len) s = .next { s with
        dsp := { s.dsp with lpf := some ((xs.reverse ++ hist).take (s.cfg.h2.length - 1)) }
        buf := { s.buf with au := m }
        seq := { s.seq with upc := s.seq.upc + 1 }
        replies := ⟨.w, responseWord .ok 0, []⟩ :: s.replies } ∧
      (∀ k, k < s.len len →
        m.read k = some (numFir s.cfg.h2 (((xs.take (k + 1)).reverse ++ hist).take s.cfg.h2.length))) ∧
      (∀ k, s.len len ≤ k → m.read k = s.buf.au.read k)

/-! ### Signal functions -/

/-- From a created state, output m of a Decimator is the filter's sum over inputs F*m+F-1 down to F*m+F-L, an input of
negative index being the zero sample, and a call of any length gives exactly one output for each F inputs (42_decimator
R243). -/
def Obligations.DecimatorOutputTiming : Prop :=
  ∀ (α : Type) (fir : List α → α) (taps factor : Nat) (zero : α) (xs : List α), 1 ≤ taps → 1 ≤ factor →
    let out := (decimate fir taps factor ⟨List.replicate (taps - 1) zero, 0⟩ xs).1
    out.length = xs.length / factor ∧
    ∀ m, m < xs.length / factor →
      out[m]? = some (fir ((List.range taps).map fun j =>
        if j ≤ factor * m + factor - 1 then xs.getD (factor * m + factor - 1 - j) zero else zero))

/-- Consecutive calls of a Decimator on blocks x and x' give the outputs and the state of one call on x ++ x'; a call on n
inputs returns (phase + n) div F outputs, leaves the phase (phase + n) mod F and keeps the length of the history
(42_decimator R242, R244). -/
def Obligations.DecimatorContinuity : Prop :=
  ∀ (α : Type) (fir : List α → α) (taps factor : Nat) (st : DecState α) (x x' : List α),
    1 ≤ taps → st.phase < factor → st.hist.length = taps - 1 →
    let r := decimate fir taps factor st x
    decimate fir taps factor st (x ++ x') =
      (r.1 ++ (decimate fir taps factor r.2 x').1, (decimate fir taps factor r.2 x').2) ∧
    r.1.length = (st.phase + x.length) / factor ∧ r.2.phase = (st.phase + x.length) % factor ∧
    r.2.hist.length = taps - 1

/-- Consecutive calls of the demodulator and of the audio filter on blocks x and x' give the outputs and the state of one
call on x ++ x', one output per input (44_fm_audio R292, R300, R299). -/
def Obligations.DemodulatorAndFilterContinuity : Prop :=
  (∀ (gain : F32) (prev : C32) (x x' : List C32),
    let r := demodulate gain prev x
    demodulate gain prev (x ++ x') = (r.1 ++ (demodulate gain r.2 x').1, (demodulate gain r.2 x').2) ∧
    r.1.length = x.length) ∧
  (∀ (h hist x x' : List F32),
    let r := lowPass h hist x
    lowPass h hist (x ++ x') = (r.1 ++ (lowPass h r.2 x').1, (lowPass h r.2 x').2) ∧
    r.1.length = x.length)

/-! ### Numerics -/

/-- mul32, add32 and sub32 are the IEEE binary32 operations rounded to nearest with ties to even, with the default results
for NaN, infinities and zeros (00_scope R18); which NaN is a free value (notes/assumptions/9.md). -/
def Obligations.ArithmeticRoundsToNearestEven : Prop :=
  ∀ a b : F32,
    (fIsFinite a = true → fIsFinite b = true →
      (let v := fUnits a * fUnits b
       if v = 0 then mul32 a b = fZero (fSign a != fSign b) else NearestEven v (mul32 a b)) ∧
      (let v := (fUnits a + fUnits b) * 2 ^ 149
       if v = 0 then add32 a b = fZero (fSign a && fSign b) else NearestEven v (add32 a b)) ∧
      (let v := (fUnits a - fUnits b) * 2 ^ 149
       if v = 0 then sub32 a b = fZero (fSign a && !fSign b) else NearestEven v (sub32 a b))) ∧
    (fIsNan a = true ∨ fIsNan b = true →
      fIsNan (mul32 a b) = true ∧ fIsNan (add32 a b) = true ∧ fIsNan (sub32 a b) = true) ∧
    (fIsInf a = true → fIsNan b = false →
      (if fIsZero b then fIsNan (mul32 a b) = true ∧ fIsNan (mul32 b a) = true
       else mul32 a b = fInf (fSign a != fSign b) ∧ mul32 b a = fInf (fSign a != fSign b)) ∧
      (if fIsInf b ∧ fSign a ≠ fSign b then fIsNan (add32 a b) = true ∧ fIsNan (add32 b a) = true
       else add32 a b = a ∧ add32 b a = a) ∧
      (if fIsInf b ∧ fSign a = fSign b then fIsNan (sub32 a b) = true ∧ fIsNan (sub32 b a) = true
       else sub32 a b = a ∧ sub32 b a = fNeg a))

/-- NUM.fir returns the exact sum where every sum of some of the exact products is a finite binary32 value, and an exact
zero as +0.0 unless every product is -0.0 (00_scope R23, exact FIR). -/
def Obligations.FirIsExactWhereRepresentable : Prop :=
  ∀ h w : List F32, h.length = w.length → (∀ a ∈ h, fIsFinite a = true) → (∀ a ∈ w, fIsFinite a = true) →
    let products := List.zipWith (fun a b => fUnits a * fUnits b) h w
    (∀ some_ : List Int, some_.Sublist products → ∃ r : F32, fIsFinite r = true ∧ fUnits r * 2 ^ 149 = some_.sum) →
    fIsFinite (numFir h w) = true ∧ fUnits (numFir h w) * 2 ^ 149 = products.sum ∧
    (products.sum = 0 →
      (∃ p ∈ List.zip h w, ¬ ((fIsZero p.1 = true ∨ fIsZero p.2 = true) ∧ fSign p.1 ≠ fSign p.2)) →
      numFir h w = 0x00000000)

/-- NUM.dft is the exact transform of 2 or 4 samples whose lanes are integers of magnitude at most 2^20 (00_scope R23, exact
DFT; 43_spectrum R266), here written out lane by lane. -/
def Obligations.SmallTransformsAreExact : Prop :=
  let small (a : F32) (k : Int) : Prop := IsInteger a k ∧ k.natAbs ≤ 2 ^ 20
  (∀ (x : List C32) (a b c d : Int), (x.map C32.re).Forall₂ small [a, c] → (x.map C32.im).Forall₂ small [b, d] →
    ((numDft x).map C32.re).Forall₂ IsInteger [a + c, a - c] ∧
    ((numDft x).map C32.im).Forall₂ IsInteger [b + d, b - d]) ∧
  (∀ (x : List C32) (a b c d a' b' c' d' : Int),
    (x.map C32.re).Forall₂ small [a, b, c, d] → (x.map C32.im).Forall₂ small [a', b', c', d'] →
    ((numDft x).map C32.re).Forall₂ IsInteger [a + b + c + d, a + b' - c - d', a - b + c - d, a - b' - c + d'] ∧
    ((numDft x).map C32.im).Forall₂ IsInteger
      [a' + b' + c' + d', a' - b - c' + d, a' - b' + c' - d', a' + b - c' - d])

/-- The special values of NUM.db, NUM.phase, NUM.offset and NUM.window that 00_scope R23 fixes, that a NaN GAIN_CONST or
USER_OFFSET gives a NaN offset, whatever the rational, and that an infinite one gives an offset that is not finite in every
instance whose NUM has the property 46_control R336 ascribes to it, and in every other where the rational is 1. The sign of
the zero NUM.db(1) is left open; that f32(0) in NUM.offset is +0.0 is the model's (notes/assumptions/16.md), and so is the
reading of R22 and R336 where R23 fixes no offset (notes/assumptions/24.md). -/
def Obligations.NumericSpecialValues : Prop :=
  (numDb 0x00000000 = 0xFF800000 ∧ numDb 0x80000000 = 0xFF800000 ∧ numDb 0x7F800000 = 0x7F800000 ∧
    (∀ p, fIsNan p = true ∨ (fSign p = true ∧ fIsZero p = false) → fIsNan (numDb p) = true) ∧
    (∀ (p : F32) (k : Nat), k ≤ 10 → IsInteger p (10 ^ k) → IsInteger (numDb p) (10 * k))) ∧
  (∀ x y : C32,
    (fIsNan x.re = true ∨ fIsNan x.im = true ∨ fIsNan y.re = true ∨ fIsNan y.im = true →
      fIsNan (numPhase x y) = true) ∧
    (fIsFinite x.re = true → fIsFinite x.im = true → fIsFinite y.re = true → fIsFinite y.im = true →
      let re := fUnits x.re * fUnits y.re + fUnits x.im * fUnits y.im
      let im := fUnits x.im * fUnits y.re - fUnits x.re * fUnits y.im
      (im = 0 → 0 ≤ re → numPhase x y = 0x00000000) ∧
      (im = 0 → re < 0 → numPhase x y = 0x40490FDB) ∧
      (re = 0 → 0 < im → numPhase x y = 0x3FC90FDB) ∧
      (re = 0 → im < 0 → numPhase x y = 0xBFC90FDB))) ∧
  (∀ (g u : F32) (k : Nat), k ≤ 10 →
    numOffset g ⟨10 ^ k, 1⟩ u = add32 (sub32 g (fOfInt false (10 * k))) u ∧
    IsInteger (fOfInt false (10 * k)) (10 * k)) ∧
  (∀ (g u : F32) (r : Ratio),
    (fIsNan g = true ∨ fIsNan u = true → fIsNan (numOffset g r u) = true) ∧
    (fIsInf g = true ∨ fIsInf u = true →
      fIsFinite (offsetWith true g r u) = false ∧ fIsFinite (numOffset g ⟨1, 1⟩ u) = false) ∧
    numOffset g r u = offsetWith Config.numKeepsInfinities g r u) ∧
  (∀ n len, numWindow n len = Config.windowFn n len)

/-! ### The whole machine -/

/-- The reset state of every instance satisfies the invariant. -/
def Obligations.ResetSatisfiesInvariant : Prop := ∀ p : Params, ValidParams p → Inv (State.resetOf p)

/-- Every step keeps the invariant: the parameters, the ROM, upc below 17, both queues (10_state R44, R45, R48), the
storages, that no working buffer holds a value the cycle has not written (10_state R64), and how session, worker, stop
signal, filters and the ROM's progress go together. -/
def Obligations.EveryStepKeepsTheInvariant : Prop := ∀ s t : State, Inv s → step s = .next t → Inv t

/-- From a state that satisfies the invariant no step faults or is refused, so use after teardown cannot happen, and no
step of the worker raises CONFIG_ERROR or ILLEGAL: its response is OK, QFULL or CLOSED, and only ERR_QFULL_OUT of the
sticky bits can change (70_reset R422, 41_worker R226, R233). -/
def Obligations.NoErrorDuringASession : Prop :=
  ∀ s : State, Inv s →
    (∃ t, step s = .next t) ∧
    (∀ e, ∃ t, runEvent e s = .next t) ∧
    (∀ t, runWorker s = .next t →
      t.csr.cfgCause = s.csr.cfgCause ∧
      { t.csr.sticky with qfullOut := false } = { s.csr.sticky with qfullOut := false } ∧
      (t.replies = s.replies ∨ ∃ (st : Status) (n : Nat), (st = .ok ∨ st = .qfull ∨ st = .closed) ∧
        t.replies = ⟨.w, responseWord st n, []⟩ :: s.replies))

/-- The stop sequence always completes: in a stopping session no step of any agent lengthens what the worker still has to
do, at most 15 steps of its own; each of its steps shortens it, since its SEQ_WAIT never holds, until it has exited; then
the stop completion is enabled, and its step stops the session (46_control R347, 41_worker R234). -/
def Obligations.StopSequenceCompletes : Prop :=
  ∀ s : State, Inv s → s.ses.sess = .stopping →
    s.stopRank ≤ 15 ∧
    (∀ (e : Event) (t : State), runEvent e s = .next t →
      (t.ses.sess = .stopping ∧ t.stopRank ≤ s.stopRank) ∨ (e = .control ∧ s.stopRank = 0 ∧ t.ses.sess = .stopped)) ∧
    (s.stopRank ≠ 0 → ∃ t, runWorker s = .next t ∧ t.ses.sess = .stopping ∧ t.stopRank < s.stopRank) ∧
    (s.stopRank = 0 → ∃ t, runControl s = .next t ∧ t.ses.sess = .stopped)

/-- A counter changes only by the commands 10_state R71 names: the queue-full counters by the two QWRITEs, CNT_UNDERRUN by
AUD_PULL, CNT_CYCLES by SEQ_END, and each by a host write to it; the control unit and the synchroniser change none. -/
def Obligations.CountersChangeOnlyByTheirRules : Prop :=
  (∀ (i : Instr) (s t : State), exec i s = .next t →
    (t.csr.cntQfullIn ≠ s.csr.cntQfullIn → (∃ b, i = .qwriteIq b) ∨ ∃ v, i = .csrWrite 0x060 v) ∧
    (t.csr.cntDropIn ≠ s.csr.cntDropIn → (∃ b, i = .qwriteIq b) ∨ ∃ v, i = .csrWrite 0x064 v) ∧
    (t.csr.cntQfullOut ≠ s.csr.cntQfullOut → (∃ l, i = .qwriteOq l) ∨ ∃ v, i = .csrWrite 0x068 v) ∧
    (t.csr.cntDropOut ≠ s.csr.cntDropOut → (∃ l, i = .qwriteOq l) ∨ ∃ v, i = .csrWrite 0x06C v) ∧
    (t.csr.cntUnderrun ≠ s.csr.cntUnderrun → (∃ f, i = .audPull f) ∨ ∃ v, i = .csrWrite 0x070 v) ∧
    (t.csr.cntCycles ≠ s.csr.cntCycles → i = .seqEnd ∨ ∃ v, i = .csrWrite 0x074 v)) ∧
  (∀ (s t : State) (q : QueueSel) (cv pv : Nat), runControl s = .next t ∨ runSync q cv pv s = .next t → t.csr = s.csr)

/-- No step writes the microprogram ROM or a build parameter (20_memory R117, 10_state R43). -/
def Obligations.RomAndParametersNeverChange : Prop :=
  ∀ s t : State, step s = .next t → t.rom = s.rom ∧ t.cfg = s.cfg

/-- The renderer is isolated: its pull answers in every state, its response and what it leaves in OQ depend on OQ and the
parameters alone, it writes nothing but OQ, CNT_UNDERRUN and ERR_UNDERRUN, a response that is not OK carries a silent
buffer, and a worker's micro-operation that ends in an error leaves OQ as it was (60_exceptions R376). -/
def Obligations.RendererIsIsolated : Prop :=
  (∀ (frames : Nat) (s u : State), u.oq = s.oq → u.cfg = s.cfg →
    ∃ (s' u' : State) (r : Reply), exec (.audPull frames) s = .next s' ∧ exec (.audPull frames) u = .next u' ∧
      s'.replies = r :: s.replies ∧ u'.replies = r :: u.replies ∧ s'.oq = u'.oq ∧
      (r.word.extractLsb' 28 4 ≠ 0 → r.data = List.replicate (2 * frames) 0x00000000) ∧
      s' = { s with
        oq := s'.oq
        csr := { s.csr with
          cntUnderrun := s'.csr.cntUnderrun
          sticky := { s.csr.sticky with underrun := s'.csr.sticky.underrun } }
        replies := s'.replies }) ∧
  (∀ (s t : State) (r : Reply), runWorker s = .next t → t.replies = r :: s.replies →
    r.word.extractLsb' 28 4 = 4 ∨ r.word.extractLsb' 28 4 = 7 → t.oq = s.oq)

/-- One producer and one consumer per queue: every step of every agent leaves what a queue holds as it was, but that port
P's command may append to IQ and the worker remove from its front, that the worker may append to OQ and port A's command
remove from its front, and that the stop completion destroys both (10_state R47). -/
def Obligations.OnlyTheirAgentsMoveSamples : Prop :=
  ∀ (s t : State) (e : Event), Inv s → runEvent e s = .next t →
    (e = .control ∧ t.ses.sess = .stopped ∧ t.iqItems = [] ∧ t.oqItems = []) ∨
    (∃ (added : List C32) (removed : Nat),
      t.iqItems = s.iqItems.drop removed ++ added ∧
      (added ≠ [] → ∃ w payload, e = .command .p w payload) ∧ (0 < removed → e = .worker)) ∧
    (∃ (added : List F32) (removed : Nat),
      t.oqItems = s.oqItems.drop removed ++ added ∧
      (added ≠ [] → e = .worker) ∧ (0 < removed → ∃ w payload, e = .command .a w payload))

/-- The rights of the ports (60_exceptions R390): the producer writes IQ, the session and its records only; the snapshot
port writes ERR_ADDR only; the host moves no sample; the worker writes no register but its own records and never the
session. A start leaves the worker's private buffers as they are or without values (10_state R64), the latter as the model
has it (notes/assumptions/19.md). -/
def Obligations.PortRights : Prop :=
  ∀ (i : Instr) (s t : State), exec i s = .next t →
    (i.port = .p → t.buf = s.buf ∧ t.dsp = s.dsp ∧ t.seq = s.seq ∧ t.oq = { s.oq with isOpen := t.oq.isOpen } ∧
      t.csr = { s.csr with
        cntQfullIn := t.csr.cntQfullIn
        cntDropIn := t.csr.cntDropIn
        sticky := { s.csr.sticky with qfullIn := t.csr.sticky.qfullIn, devfault := t.csr.sticky.devfault } }) ∧
    (i.port = .s → t = { s with
      csr := { s.csr with sticky := { s.csr.sticky with addr := t.csr.sticky.addr } }
      replies := t.replies }) ∧
    (i.port = .h → (i = .acqStart → t.buf = s.buf ∨
        t.buf = { s.buf.forgetWork with win := t.buf.win, winLen := t.buf.winLen }) ∧
      t.iq.buf = s.iq.buf ∧ t.oq.buf = s.oq.buf ∧
      (i ≠ .acqStart → t.buf = s.buf ∧ t.dsp = s.dsp ∧ t.seq = s.seq ∧
        t.iq = { s.iq with isOpen := t.iq.isOpen } ∧ t.oq = { s.oq with isOpen := t.oq.isOpen })) ∧
    (i.port = .w → t.ses = s.ses ∧ t.iq.isOpen = s.iq.isOpen ∧ t.oq.isOpen = s.oq.isOpen ∧
      t.csr = { s.csr with
        wbOffset := t.csr.wbOffset
        nbOffset := t.csr.nbOffset
        cntQfullOut := t.csr.cntQfullOut
        cntDropOut := t.csr.cntDropOut
        cntCycles := t.csr.cntCycles
        cfgCause := t.csr.cfgCause
        sticky := { s.csr.sticky with
          qfullOut := t.csr.sticky.qfullOut
          config := t.csr.sticky.config
          illegal := t.csr.sticky.illegal } })

/-- The synchroniser's step: with conservative views it may set a queue's views to any values that do not go back, do not
pass the truth and of which one increases; it changes nothing else, and with exact views nothing at all (20_memory R112).
That a choice that is not allowed changes nothing is the model's (notes/assumptions/3.md). -/
def Obligations.SynchroniserEffect : Prop :=
  ∀ (s : State) (cv pv : Nat),
    (s.cfg.queueView = .exact → runSync .iq cv pv s = .next s ∧ runSync .oq cv pv s = .next s) ∧
    (s.cfg.queueView = .conservative →
      runSync .iq cv pv s = .next
        (if s.iq.cv ≤ cv ∧ cv ≤ s.iq.avail ∧ s.iq.pv ≤ pv ∧ pv ≤ s.cfg.capIn - s.iq.avail ∧ (s.iq.cv < cv ∨ s.iq.pv < pv)
         then { s with iq := { s.iq with cv := cv, pv := pv } } else s) ∧
      runSync .oq cv pv s = .next
        (if s.oq.cv ≤ cv ∧ cv ≤ s.oq.avail ∧ s.oq.pv ≤ pv ∧ pv ≤ s.cfg.capOut - s.oq.avail ∧ (s.oq.cv < cv ∨ s.oq.pv < pv)
         then { s with oq := { s.oq with cv := cv, pv := pv } } else s))

/-- One complete cycle: from the top of the loop of a running session with a block in view, seventeen steps of the worker
have exactly the effects of 41_worker R232 on the block `x` read from IQ. That the schedule of those steps is data is the
model's (notes/assumptions/2.md); the statement is about seventeen turns with no other agent's turn between. -/
def Obligations.CompleteCycleEffects : Prop :=
  ∀ (s : State) (d0 : DecState C32) (d1 : DecState F32) (hist : List F32) (prev : C32), Inv s →
    s.ses.sess = .running → s.seq.upc = 0 → s.iq.isOpen = true → s.ses.sN ≤ s.iq.cv →
    s.sched = List.replicate 17 .worker → s.dsp = ⟨some d0, some d1, some hist, some prev⟩ →
    let x := s.iqItems.take s.ses.sN
    let windowed := if s.csr.winEn then List.zipWith windowSample x (s.readWin s.ses.sN) else x
    let wbOffset := numOffset s.csr.gainConst (ratioOf s.ses.sN 2) s.csr.userOffset
    let nbOffset := numOffset s.csr.gainConst (ratioOf s.ses.sN (2 * s.ses.sD)) s.csr.userOffset
    let y := decimate (fun w => ⟨numFir s.cfg.h0 (w.map C32.re), numFir s.cfg.h0 (w.map C32.im)⟩)
      s.cfg.h0.length s.ses.sD d0 x
    let v := demodulate s.cfg.fmGain prev y.1
    let z := lowPass s.cfg.h2 hist v.1
    let a := decimate (fun w => numFir s.cfg.h1 w) s.cfg.h1.length s.ses.sD2 d1 z.1
    let o := queueWrite s.cfg.queueView s.cfg.capOut s.oq a.1
    ∃ t : State, Sys2Proof.core.run 17 s = .next t ∧
      y.1.length = s.ses.sM ∧ a.1.length = s.ses.sK ∧
      t.readPower .wide s.ses.sN = (numDft windowed).map (binDb wbOffset) ∧
      t.readPower .narrow s.ses.sM = (numDft y.1).map (binDb nbOffset) ∧
      (∀ k, s.ses.sN ≤ k → t.buf.pwWb.read k = s.buf.pwWb.read k) ∧
      (∀ k, s.ses.sM ≤ k → t.buf.pwNb.read k = s.buf.pwNb.read k) ∧
      t.buf.lastLenWb = s.ses.sN ∧ t.buf.lastLenNb = s.ses.sM ∧ t.buf.wbValid = true ∧ t.buf.nbValid = true ∧
      t.buf.win = s.buf.win ∧ t.buf.winLen = s.buf.winLen ∧
      t.dsp = ⟨some y.2, some a.2, some z.2, some v.2⟩ ∧
      t.oq = o.queue ∧ t.iqItems = s.iqItems.drop s.ses.sN ∧
      t.csr = { s.csr with
        wbOffset := wbOffset
        nbOffset := nbOffset
        cntCycles := s.csr.cntCycles + 1
        cntQfullOut := if o.status = .qfull then s.csr.cntQfullOut + 1 else s.csr.cntQfullOut
        cntDropOut :=
          if o.status = .qfull then s.csr.cntDropOut + BitVec.ofNat 32 (s.ses.sK - o.accepted) else s.csr.cntDropOut
        sticky := { s.csr.sticky with qfullOut := s.csr.sticky.qfullOut || o.status = .qfull } } ∧
      t.seq = { s.seq with upc := 0, short := false, latWin := s.csr.winEn, latUo := s.csr.userOffset } ∧
      t.ses = s.ses ∧ t.cfg = s.cfg ∧ t.rom = s.rom ∧ t.sched = []
end

