-- ==== Sys2Proof/Laws/Float.lean ====
section
/-! SUPPORT. The fields of a packed binary32 pattern, what the patterns with free bits are, and NUM.fir case by case. -/

namespace Sys2Proof.Machine

theorem toNat_fPack (sign : Bool) {rest : Nat} (h : rest < 2 ^ 31) :
    (fPack sign rest).toNat = sign.toNat * 2 ^ 31 + rest := by
  have : sign.toNat ≤ 1 := Bool.toNat_le sign
  simp only [fPack, BitVec.toNat_ofNat]
  omega

theorem fSign_fPack (sign : Bool) {rest : Nat} (h : rest < 2 ^ 31) : fSign (fPack sign rest) = sign := by
  rw [fSign, toNat_fPack sign h]
  cases sign <;> simp only [Bool.toNat_false, Bool.toNat_true, beq_eq_false_iff_ne, beq_iff_eq, ne_eq] <;> omega

theorem fExp_fPack (sign : Bool) {rest : Nat} (h : rest < 2 ^ 31) : fExp (fPack sign rest) = rest / 2 ^ 23 := by
  rw [fExp, toNat_fPack sign h]
  omega

theorem fFrac_fPack (sign : Bool) {rest : Nat} (h : rest < 2 ^ 31) : fFrac (fPack sign rest) = rest % 2 ^ 23 := by
  rw [fFrac, toNat_fPack sign h]
  omega

/-- Every pattern of fNanOf is a NaN. -/
@[simp] theorem fIsNan_fNanOf (bits : Word) : fIsNan (fNanOf bits) = true := by
  have hf : bits.toNat % 2 ^ 23 < 2 ^ 23 := Nat.mod_lt _ (by decide)
  simp only [fNanOf, fIsNan, Bool.and_eq_true, beq_iff_eq, bne_iff_ne]
  split <;> rw [fExp_fPack _ (by omega), fFrac_fPack _ (by omega)] <;> omega

/-- No pattern of fNonFiniteOf is finite. -/
@[simp] theorem fIsFinite_fNonFiniteOf (bits : Word) : fIsFinite (fNonFiniteOf bits) = false := by
  have hf : bits.toNat % 2 ^ 23 < 2 ^ 23 := Nat.mod_lt _ (by decide)
  simp only [fNonFiniteOf, fIsFinite, bne_eq_false_iff_eq]
  rw [fExp_fPack _ (by omega)]
  omega

/-- A NaN is not finite. -/
theorem fIsFinite_of_fIsNan {a : F32} (h : fIsNan a = true) : fIsFinite a = false := by
  simp only [fIsNan, Bool.and_eq_true, beq_iff_eq] at h
  simp [fIsFinite, h.1]

/-- Every value is finite, infinite or a NaN. -/
theorem fIsFinite_cases (a : F32) : fIsFinite a = true ∨ fIsInf a = true ∨ fIsNan a = true := by
  simp only [fIsFinite, fIsInf, fIsNan, Bool.and_eq_true, beq_iff_eq, bne_iff_ne]
  tauto

/-! ### NUM.fir by the kind of its samples -/

theorem numFir_of_nan {h w : List F32} (hl : h.length = w.length) (hn : w.any fIsNan = true) :
    fIsNan (numFir h w) = true := by
  simp only [numFir, firWith, hl, ne_eq, not_true_eq_false, if_false, hn, if_true, fIsNan_fNanOf]

theorem numFir_of_exact {h w : List F32} (hl : h.length = w.length) (hn : w.any fIsNan = false)
    (hi : w.any fIsInf = false) (he : firExact h w = true) :
    numFir h w = roundInt (allNegativeZero h w && fSign (Config.freeFir h w)) (firProducts h w).sum := by
  simp [numFir, firWith, hl, hn, hi, he]

/-- 42_decimator R250, for a NUM that has the property. -/
theorem firWith_of_inf {h w : List F32} (hl : h.length = w.length) (hi : w.any fIsInf = true) :
    fIsFinite (firWith true h w) = false := by
  unfold firWith
  rw [if_neg (by simp [hl])]
  split
  · exact fIsFinite_of_fIsNan (by simp)
  · rw [if_pos (by simp only [Bool.and_true, hi])]
    split
    · rename_i h1
      subst h1
      match w, hl with
      | [x], _ =>
        have hx : fIsInf x = true := by simpa using hi
        simp only [fIsInf, Bool.and_eq_true, beq_iff_eq] at hx
        simp [fIsFinite, hx.1]
    · exact fIsFinite_fNonFiniteOf _

end Sys2Proof.Machine
end

