-- ==== Sys2Proof/Laws/Memory.lean ====
section
/-! SUPPORT. Storages: reads after writes, and that every storage operation keeps the canonical form. -/

namespace Sys2Proof.Machine

variable {α : Type}

/-! ### Reading an element -/

theorem Memory.read_append (a b : Memory α) (i : Nat) :
    Memory.read (a ++ b) i = (Memory.read a i).or (Memory.read b i) := by
  induction a with
  | nil => simp [Memory.read]
  | cons c rest ih =>
    obtain ⟨k, v⟩ := c
    by_cases h : k = i <;> simp [Memory.read, h, ih]

theorem Memory.read_filter_of_true (p : Nat → Bool) (m : Memory α) (i : Nat) (h : p i = true) :
    Memory.read (m.filter fun c => p c.1) i = m.read i := by
  induction m with
  | nil => rfl
  | cons c rest ih =>
    obtain ⟨k, v⟩ := c
    by_cases hk : k = i
    · subst hk; simp [Memory.read, h]
    · by_cases hp : p k = true <;> simp [Memory.read, hk, hp, ih]

theorem Memory.read_filter_of_false (p : Nat → Bool) (m : Memory α) (i : Nat) (h : p i = false) :
    Memory.read (m.filter fun c => p c.1) i = none := by
  induction m with
  | nil => rfl
  | cons c rest ih =>
    obtain ⟨k, v⟩ := c
    by_cases hp : p k = true
    · have hk : k ≠ i := by rintro rfl; simp [h] at hp
      simp [Memory.read, hk, hp, ih]
    · simp [hp, ih]

theorem read_cellsFrom_outside (i k : Nat) (vs : List α) (h : k < i ∨ i + vs.length ≤ k) :
    Memory.read (cellsFrom i vs) k = none := by
  induction vs generalizing i with
  | nil => rfl
  | cons v vs ih =>
    simp only [List.length_cons] at h
    simp [cellsFrom, Memory.read, show i ≠ k by omega, ih (i + 1) (by omega)]

theorem read_cellsFrom_inside (i j : Nat) (vs : List α) (h : j < vs.length) :
    Memory.read (cellsFrom i vs) (i + j) = some vs[j] := by
  induction vs generalizing i j with
  | nil => simp at h
  | cons v vs ih =>
    cases j with
    | zero => simp [cellsFrom, Memory.read]
    | succ j =>
      have := ih (i + 1) j (by simpa using h)
      simp [cellsFrom, Memory.read, ← this, show i + 1 + j = i + (j + 1) by omega]

/-! ### Reading after a write -/

theorem Memory.read_writeBlock_outside (m : Memory α) (i k : Nat) (vs : List α) (h : k < i ∨ i + vs.length ≤ k) :
    (m.writeBlock i vs).read k = m.read k := by
  rw [Memory.writeBlock, Memory.read_append, Memory.read_append, read_cellsFrom_outside i k vs h]
  rcases h with h | h
  · rw [Memory.read_filter_of_true (fun c => decide (c < i)) m k (by simpa),
      Memory.read_filter_of_false (fun c => decide (i + vs.length ≤ c)) m k (by simp; omega)]
    simp
  · rw [Memory.read_filter_of_false (fun c => decide (c < i)) m k (by simp; omega),
      Memory.read_filter_of_true (fun c => decide (i + vs.length ≤ c)) m k (by simpa)]
    simp

theorem Memory.read_writeBlock_inside (m : Memory α) (i j : Nat) (vs : List α) (h : j < vs.length) :
    (m.writeBlock i vs).read (i + j) = some vs[j] := by
  rw [Memory.writeBlock, Memory.read_append, Memory.read_append, read_cellsFrom_inside i j vs h,
    Memory.read_filter_of_false (fun c => decide (c < i)) m (i + j) (by simp)]
  simp

theorem Memory.read_writeBlock_zero (m : Memory α) (j : Nat) (vs : List α) (h : j < vs.length) :
    (m.writeBlock 0 vs).read j = some vs[j] := by
  simpa using m.read_writeBlock_inside 0 j vs h

theorem Memory.read_write (m : Memory α) (i k : Nat) (v : α) :
    (m.write i v).read k = if k = i then some v else m.read k := by
  by_cases h : k = i
  · subst h; simpa [Memory.write] using m.read_writeBlock_inside k 0 [v] (by simp)
  · simpa [Memory.write, h] using m.read_writeBlock_outside i k [v] (by simp; omega)

theorem Memory.isSome_read_writeBlock (m : Memory α) (i k : Nat) (vs : List α) (h : (m.read k).isSome = true) :
    ((m.writeBlock i vs).read k).isSome = true := by
  by_cases hk : k < i ∨ i + vs.length ≤ k
  · rwa [m.read_writeBlock_outside i k vs hk]
  · have := m.read_writeBlock_inside i (k - i) vs (by omega)
    rw [show i + (k - i) = k by omega] at this
    simp [this]

/-- Writing no value leaves a storage as it is. -/
@[simp] theorem Memory.writeBlock_zero_nil (m : Memory α) : m.writeBlock 0 [] = m := by
  simp [Memory.writeBlock, cellsFrom]

@[simp] theorem Memory.readBlock_length (free : Nat → α) (m : Memory α) (i n : Nat) :
    (m.readBlock free i n).length = n := by
  simp [Memory.readBlock]

/-- A block read back is the block written. -/
theorem Memory.readBlock_writeBlock (free : Nat → α) (m : Memory α) (i : Nat) (vs : List α) :
    (m.writeBlock i vs).readBlock free i vs.length = vs := by
  apply List.ext_getElem (by simp)
  intro j h₁ h₂
  simp [Memory.readBlock, m.read_writeBlock_inside i j vs h₂]

/-! ### The canonical form -/

theorem Memory.wf_nil : Memory.wf ([] : Memory α) := List.Pairwise.nil

theorem mem_cellsFrom {i : Nat} {vs : List α} {c : Nat × α} (h : c ∈ cellsFrom i vs) :
    i ≤ c.1 ∧ c.1 < i + vs.length := by
  induction vs generalizing i with
  | nil => simp [cellsFrom] at h
  | cons v vs ih =>
    rcases List.mem_cons.1 h with rfl | h
    · simp
    · have := ih h
      simp; omega

theorem wf_cellsFrom (i : Nat) (vs : List α) : Memory.wf (cellsFrom i vs) := by
  induction vs generalizing i with
  | nil => exact List.Pairwise.nil
  | cons v vs ih =>
    simp only [Memory.wf, cellsFrom, List.map_cons, List.pairwise_cons]
    refine ⟨fun k hk => ?_, ih (i + 1)⟩
    obtain ⟨c, hc, rfl⟩ := List.mem_map.1 hk
    have := mem_cellsFrom hc
    omega

theorem Memory.wf_filter {m : Memory α} (h : Memory.wf m) (p : Nat × α → Bool) : Memory.wf (m.filter p) :=
  h.sublist ((List.filter_sublist (l := m) (p := p)).map _)

theorem Memory.wf_writeBlock {m : Memory α} (h : Memory.wf m) (i : Nat) (vs : List α) :
    Memory.wf (m.writeBlock i vs) := by
  simp only [Memory.wf, Memory.writeBlock, List.map_append, List.pairwise_append]
  refine ⟨⟨Memory.wf_filter h _, wf_cellsFrom i vs, ?_⟩, Memory.wf_filter h _, ?_⟩
  · intro a ha b hb
    obtain ⟨c, hc, rfl⟩ := List.mem_map.1 ha
    obtain ⟨d, hd, rfl⟩ := List.mem_map.1 hb
    have := mem_cellsFrom hd
    have := (List.mem_filter.1 hc).2
    simp only [decide_eq_true_eq] at this
    omega
  · intro a ha b hb
    obtain ⟨d, hd, rfl⟩ := List.mem_map.1 hb
    have hd' := (List.mem_filter.1 hd).2
    simp only [decide_eq_true_eq] at hd'
    rcases List.mem_append.1 ha with ha | ha
    · obtain ⟨c, hc, rfl⟩ := List.mem_map.1 ha
      have := (List.mem_filter.1 hc).2
      simp only [decide_eq_true_eq] at this
      omega
    · obtain ⟨c, hc, rfl⟩ := List.mem_map.1 ha
      have := mem_cellsFrom hc
      omega

theorem Memory.wf_write {m : Memory α} (h : Memory.wf m) (i : Nat) (v : α) : Memory.wf (m.write i v) :=
  Memory.wf_writeBlock h i [v]

theorem Memory.mem_writeBlock {m : Memory α} {i : Nat} {vs : List α} {c : Nat × α} (h : c ∈ m.writeBlock i vs) :
    c ∈ m ∨ (i ≤ c.1 ∧ c.1 < i + vs.length) := by
  simp only [Memory.writeBlock, List.mem_append, List.mem_filter] at h
  rcases h with (h | h) | h
  · exact .inl h.1
  · exact .inr (mem_cellsFrom h)
  · exact .inl h.1

theorem Memory.read_eq_none_of_lt {m : Memory α} {i : Nat} (h : ∀ c ∈ m, i < c.1) : m.read i = none := by
  induction m with
  | nil => rfl
  | cons c rest ih =>
    obtain ⟨k, v⟩ := c
    have : i < k := h (k, v) (by simp)
    simp [Memory.read, show k ≠ i by omega, ih fun c hc => h c (by simp [hc])]

/-- Storages in canonical form that read the same are the same list. -/
theorem Memory.ext_of_wf {a b : Memory α} (ha : Memory.wf a) (hb : Memory.wf b) (h : ∀ i, a.read i = b.read i) :
    a = b := by
  induction a generalizing b with
  | nil =>
    cases b with
    | nil => rfl
    | cons c rest => simpa [Memory.read] using h c.1
  | cons c as ih =>
    cases b with
    | nil => simpa [Memory.read] using h c.1
    | cons d bs =>
      obtain ⟨k, v⟩ := c
      obtain ⟨l, w⟩ := d
      simp only [Memory.wf, List.map_cons, List.pairwise_cons, List.mem_map, forall_exists_index, and_imp,
        forall_apply_eq_imp_iff₂] at ha hb
      have hkl : k = l := by
        rcases Nat.lt_trichotomy k l with hlt | heq | hgt
        · have := h k
          rw [Memory.read_eq_none_of_lt (m := (l, w) :: bs)] at this
          · simp [Memory.read] at this
          · intro c hc
            rcases List.mem_cons.1 hc with rfl | hc
            · exact hlt
            · have := hb.1 c hc; omega
        · exact heq
        · have := h l
          rw [Memory.read_eq_none_of_lt (m := (k, v) :: as)] at this
          · simp [Memory.read] at this
          · intro c hc
            rcases List.mem_cons.1 hc with rfl | hc
            · exact hgt
            · have := ha.1 c hc; omega
      subst hkl
      have hvw : v = w := by simpa [Memory.read] using h k
      subst hvw
      rw [ih ha.2 hb.2 fun i => ?_]
      by_cases hi : k = i
      · subst hi
        rw [Memory.read_eq_none_of_lt (m := as) ha.1, Memory.read_eq_none_of_lt (m := bs) hb.1]
      · simpa [Memory.read, hi] using h i

/-- A write of a block below a bound keeps every index below the bound. -/
theorem Memory.below_writeBlock {m : Memory α} {b i : Nat} {vs : List α} (h : ∀ c ∈ m, c.1 < b)
    (hb : i + vs.length ≤ b) : ∀ c ∈ m.writeBlock i vs, c.1 < b := by
  intro c hc
  rcases Memory.mem_writeBlock hc with hc | hc
  · exact h c hc
  · omega

/-- A block written from element 0 leaves its elements written. -/
theorem written_writeBlock {m : Memory α} {vs : List α} {n : Nat} (h : n ≤ vs.length) (i : Nat) (hi : i < n) :
    ((m.writeBlock 0 vs).read i).isSome = true := by
  rw [m.read_writeBlock_zero i vs (by omega)]
  rfl

end Sys2Proof.Machine
end

