-- ==== Sys2Proof/Laws/State.lean ====
section
/-! SUPPORT. What each named update of the state leaves in each component. -/

namespace Sys2Proof.Machine

variable (s : State)

@[simp] theorem State.setCsr_cfg (v : Csrs) : (s.setCsr v).cfg = s.cfg := rfl
@[simp] theorem State.setCsr_csr (v : Csrs) : (s.setCsr v).csr = v := rfl
@[simp] theorem State.setCsr_iq (v : Csrs) : (s.setCsr v).iq = s.iq := rfl
@[simp] theorem State.setCsr_oq (v : Csrs) : (s.setCsr v).oq = s.oq := rfl
@[simp] theorem State.setCsr_buf (v : Csrs) : (s.setCsr v).buf = s.buf := rfl
@[simp] theorem State.setCsr_dsp (v : Csrs) : (s.setCsr v).dsp = s.dsp := rfl
@[simp] theorem State.setCsr_seq (v : Csrs) : (s.setCsr v).seq = s.seq := rfl
@[simp] theorem State.setCsr_ses (v : Csrs) : (s.setCsr v).ses = s.ses := rfl
@[simp] theorem State.setCsr_rom (v : Csrs) : (s.setCsr v).rom = s.rom := rfl
@[simp] theorem State.setCsr_sched (v : Csrs) : (s.setCsr v).sched = s.sched := rfl
@[simp] theorem State.setCsr_replies (v : Csrs) : (s.setCsr v).replies = s.replies := rfl

@[simp] theorem State.setIq_cfg (v : Queue C32) : (s.setIq v).cfg = s.cfg := rfl
@[simp] theorem State.setIq_csr (v : Queue C32) : (s.setIq v).csr = s.csr := rfl
@[simp] theorem State.setIq_iq (v : Queue C32) : (s.setIq v).iq = v := rfl
@[simp] theorem State.setIq_oq (v : Queue C32) : (s.setIq v).oq = s.oq := rfl
@[simp] theorem State.setIq_buf (v : Queue C32) : (s.setIq v).buf = s.buf := rfl
@[simp] theorem State.setIq_dsp (v : Queue C32) : (s.setIq v).dsp = s.dsp := rfl
@[simp] theorem State.setIq_seq (v : Queue C32) : (s.setIq v).seq = s.seq := rfl
@[simp] theorem State.setIq_ses (v : Queue C32) : (s.setIq v).ses = s.ses := rfl
@[simp] theorem State.setIq_rom (v : Queue C32) : (s.setIq v).rom = s.rom := rfl
@[simp] theorem State.setIq_sched (v : Queue C32) : (s.setIq v).sched = s.sched := rfl
@[simp] theorem State.setIq_replies (v : Queue C32) : (s.setIq v).replies = s.replies := rfl

@[simp] theorem State.setOq_cfg (v : Queue F32) : (s.setOq v).cfg = s.cfg := rfl
@[simp] theorem State.setOq_csr (v : Queue F32) : (s.setOq v).csr = s.csr := rfl
@[simp] theorem State.setOq_iq (v : Queue F32) : (s.setOq v).iq = s.iq := rfl
@[simp] theorem State.setOq_oq (v : Queue F32) : (s.setOq v).oq = v := rfl
@[simp] theorem State.setOq_buf (v : Queue F32) : (s.setOq v).buf = s.buf := rfl
@[simp] theorem State.setOq_dsp (v : Queue F32) : (s.setOq v).dsp = s.dsp := rfl
@[simp] theorem State.setOq_seq (v : Queue F32) : (s.setOq v).seq = s.seq := rfl
@[simp] theorem State.setOq_ses (v : Queue F32) : (s.setOq v).ses = s.ses := rfl
@[simp] theorem State.setOq_rom (v : Queue F32) : (s.setOq v).rom = s.rom := rfl
@[simp] theorem State.setOq_sched (v : Queue F32) : (s.setOq v).sched = s.sched := rfl
@[simp] theorem State.setOq_replies (v : Queue F32) : (s.setOq v).replies = s.replies := rfl

@[simp] theorem State.setBuf_cfg (v : Buffers) : (s.setBuf v).cfg = s.cfg := rfl
@[simp] theorem State.setBuf_csr (v : Buffers) : (s.setBuf v).csr = s.csr := rfl
@[simp] theorem State.setBuf_iq (v : Buffers) : (s.setBuf v).iq = s.iq := rfl
@[simp] theorem State.setBuf_oq (v : Buffers) : (s.setBuf v).oq = s.oq := rfl
@[simp] theorem State.setBuf_buf (v : Buffers) : (s.setBuf v).buf = v := rfl
@[simp] theorem State.setBuf_dsp (v : Buffers) : (s.setBuf v).dsp = s.dsp := rfl
@[simp] theorem State.setBuf_seq (v : Buffers) : (s.setBuf v).seq = s.seq := rfl
@[simp] theorem State.setBuf_ses (v : Buffers) : (s.setBuf v).ses = s.ses := rfl
@[simp] theorem State.setBuf_rom (v : Buffers) : (s.setBuf v).rom = s.rom := rfl
@[simp] theorem State.setBuf_sched (v : Buffers) : (s.setBuf v).sched = s.sched := rfl
@[simp] theorem State.setBuf_replies (v : Buffers) : (s.setBuf v).replies = s.replies := rfl

@[simp] theorem State.setDsp_cfg (v : Filters) : (s.setDsp v).cfg = s.cfg := rfl
@[simp] theorem State.setDsp_csr (v : Filters) : (s.setDsp v).csr = s.csr := rfl
@[simp] theorem State.setDsp_iq (v : Filters) : (s.setDsp v).iq = s.iq := rfl
@[simp] theorem State.setDsp_oq (v : Filters) : (s.setDsp v).oq = s.oq := rfl
@[simp] theorem State.setDsp_buf (v : Filters) : (s.setDsp v).buf = s.buf := rfl
@[simp] theorem State.setDsp_dsp (v : Filters) : (s.setDsp v).dsp = v := rfl
@[simp] theorem State.setDsp_seq (v : Filters) : (s.setDsp v).seq = s.seq := rfl
@[simp] theorem State.setDsp_ses (v : Filters) : (s.setDsp v).ses = s.ses := rfl
@[simp] theorem State.setDsp_rom (v : Filters) : (s.setDsp v).rom = s.rom := rfl
@[simp] theorem State.setDsp_sched (v : Filters) : (s.setDsp v).sched = s.sched := rfl
@[simp] theorem State.setDsp_replies (v : Filters) : (s.setDsp v).replies = s.replies := rfl

@[simp] theorem State.setSeq_cfg (v : Sequencer) : (s.setSeq v).cfg = s.cfg := rfl
@[simp] theorem State.setSeq_csr (v : Sequencer) : (s.setSeq v).csr = s.csr := rfl
@[simp] theorem State.setSeq_iq (v : Sequencer) : (s.setSeq v).iq = s.iq := rfl
@[simp] theorem State.setSeq_oq (v : Sequencer) : (s.setSeq v).oq = s.oq := rfl
@[simp] theorem State.setSeq_buf (v : Sequencer) : (s.setSeq v).buf = s.buf := rfl
@[simp] theorem State.setSeq_dsp (v : Sequencer) : (s.setSeq v).dsp = s.dsp := rfl
@[simp] theorem State.setSeq_seq (v : Sequencer) : (s.setSeq v).seq = v := rfl
@[simp] theorem State.setSeq_ses (v : Sequencer) : (s.setSeq v).ses = s.ses := rfl
@[simp] theorem State.setSeq_rom (v : Sequencer) : (s.setSeq v).rom = s.rom := rfl
@[simp] theorem State.setSeq_sched (v : Sequencer) : (s.setSeq v).sched = s.sched := rfl
@[simp] theorem State.setSeq_replies (v : Sequencer) : (s.setSeq v).replies = s.replies := rfl

@[simp] theorem State.setSes_cfg (v : Session) : (s.setSes v).cfg = s.cfg := rfl
@[simp] theorem State.setSes_csr (v : Session) : (s.setSes v).csr = s.csr := rfl
@[simp] theorem State.setSes_iq (v : Session) : (s.setSes v).iq = s.iq := rfl
@[simp] theorem State.setSes_oq (v : Session) : (s.setSes v).oq = s.oq := rfl
@[simp] theorem State.setSes_buf (v : Session) : (s.setSes v).buf = s.buf := rfl
@[simp] theorem State.setSes_dsp (v : Session) : (s.setSes v).dsp = s.dsp := rfl
@[simp] theorem State.setSes_seq (v : Session) : (s.setSes v).seq = s.seq := rfl
@[simp] theorem State.setSes_ses (v : Session) : (s.setSes v).ses = v := rfl
@[simp] theorem State.setSes_rom (v : Session) : (s.setSes v).rom = s.rom := rfl
@[simp] theorem State.setSes_sched (v : Session) : (s.setSes v).sched = s.sched := rfl
@[simp] theorem State.setSes_replies (v : Session) : (s.setSes v).replies = s.replies := rfl

@[simp] theorem State.setRom_cfg (v : List Word) : (s.setRom v).cfg = s.cfg := rfl
@[simp] theorem State.setRom_csr (v : List Word) : (s.setRom v).csr = s.csr := rfl
@[simp] theorem State.setRom_iq (v : List Word) : (s.setRom v).iq = s.iq := rfl
@[simp] theorem State.setRom_oq (v : List Word) : (s.setRom v).oq = s.oq := rfl
@[simp] theorem State.setRom_buf (v : List Word) : (s.setRom v).buf = s.buf := rfl
@[simp] theorem State.setRom_dsp (v : List Word) : (s.setRom v).dsp = s.dsp := rfl
@[simp] theorem State.setRom_seq (v : List Word) : (s.setRom v).seq = s.seq := rfl
@[simp] theorem State.setRom_ses (v : List Word) : (s.setRom v).ses = s.ses := rfl
@[simp] theorem State.setRom_rom (v : List Word) : (s.setRom v).rom = v := rfl
@[simp] theorem State.setRom_sched (v : List Word) : (s.setRom v).sched = s.sched := rfl
@[simp] theorem State.setRom_replies (v : List Word) : (s.setRom v).replies = s.replies := rfl

@[simp] theorem State.setSched_cfg (v : List Event) : (s.setSched v).cfg = s.cfg := rfl
@[simp] theorem State.setSched_csr (v : List Event) : (s.setSched v).csr = s.csr := rfl
@[simp] theorem State.setSched_iq (v : List Event) : (s.setSched v).iq = s.iq := rfl
@[simp] theorem State.setSched_oq (v : List Event) : (s.setSched v).oq = s.oq := rfl
@[simp] theorem State.setSched_buf (v : List Event) : (s.setSched v).buf = s.buf := rfl
@[simp] theorem State.setSched_dsp (v : List Event) : (s.setSched v).dsp = s.dsp := rfl
@[simp] theorem State.setSched_seq (v : List Event) : (s.setSched v).seq = s.seq := rfl
@[simp] theorem State.setSched_ses (v : List Event) : (s.setSched v).ses = s.ses := rfl
@[simp] theorem State.setSched_rom (v : List Event) : (s.setSched v).rom = s.rom := rfl
@[simp] theorem State.setSched_sched (v : List Event) : (s.setSched v).sched = v := rfl
@[simp] theorem State.setSched_replies (v : List Event) : (s.setSched v).replies = s.replies := rfl

@[simp] theorem State.addReply_cfg (r : Reply) : (s.addReply r).cfg = s.cfg := rfl
@[simp] theorem State.addReply_csr (r : Reply) : (s.addReply r).csr = s.csr := rfl
@[simp] theorem State.addReply_iq (r : Reply) : (s.addReply r).iq = s.iq := rfl
@[simp] theorem State.addReply_oq (r : Reply) : (s.addReply r).oq = s.oq := rfl
@[simp] theorem State.addReply_buf (r : Reply) : (s.addReply r).buf = s.buf := rfl
@[simp] theorem State.addReply_dsp (r : Reply) : (s.addReply r).dsp = s.dsp := rfl
@[simp] theorem State.addReply_seq (r : Reply) : (s.addReply r).seq = s.seq := rfl
@[simp] theorem State.addReply_ses (r : Reply) : (s.addReply r).ses = s.ses := rfl
@[simp] theorem State.addReply_rom (r : Reply) : (s.addReply r).rom = s.rom := rfl
@[simp] theorem State.addReply_sched (r : Reply) : (s.addReply r).sched = s.sched := rfl
@[simp] theorem State.addReply_replies (r : Reply) : (s.addReply r).replies = r :: s.replies := rfl

@[simp] theorem State.respond_cfg (port : Port) (st : Status) (n : Nat) (d : List Word) : (s.respond port st n d).cfg = s.cfg := rfl
@[simp] theorem State.respond_csr (port : Port) (st : Status) (n : Nat) (d : List Word) : (s.respond port st n d).csr = s.csr := rfl
@[simp] theorem State.respond_iq (port : Port) (st : Status) (n : Nat) (d : List Word) : (s.respond port st n d).iq = s.iq := rfl
@[simp] theorem State.respond_oq (port : Port) (st : Status) (n : Nat) (d : List Word) : (s.respond port st n d).oq = s.oq := rfl
@[simp] theorem State.respond_buf (port : Port) (st : Status) (n : Nat) (d : List Word) : (s.respond port st n d).buf = s.buf := rfl
@[simp] theorem State.respond_dsp (port : Port) (st : Status) (n : Nat) (d : List Word) : (s.respond port st n d).dsp = s.dsp := rfl
@[simp] theorem State.respond_seq (port : Port) (st : Status) (n : Nat) (d : List Word) : (s.respond port st n d).seq = s.seq := rfl
@[simp] theorem State.respond_ses (port : Port) (st : Status) (n : Nat) (d : List Word) : (s.respond port st n d).ses = s.ses := rfl
@[simp] theorem State.respond_rom (port : Port) (st : Status) (n : Nat) (d : List Word) : (s.respond port st n d).rom = s.rom := rfl
@[simp] theorem State.respond_sched (port : Port) (st : Status) (n : Nat) (d : List Word) : (s.respond port st n d).sched = s.sched := rfl
@[simp] theorem State.respond_replies (port : Port) (st : Status) (n : Nat) (d : List Word) : (s.respond port st n d).replies = ⟨port, responseWord st n, d⟩ :: s.replies := rfl

@[simp] theorem State.setSticky_cfg (b : StickyBit) : (s.setSticky b).cfg = s.cfg := rfl
@[simp] theorem State.setSticky_csr (b : StickyBit) : (s.setSticky b).csr = { s.csr with sticky := s.csr.sticky.set b } := rfl
@[simp] theorem State.setSticky_iq (b : StickyBit) : (s.setSticky b).iq = s.iq := rfl
@[simp] theorem State.setSticky_oq (b : StickyBit) : (s.setSticky b).oq = s.oq := rfl
@[simp] theorem State.setSticky_buf (b : StickyBit) : (s.setSticky b).buf = s.buf := rfl
@[simp] theorem State.setSticky_dsp (b : StickyBit) : (s.setSticky b).dsp = s.dsp := rfl
@[simp] theorem State.setSticky_seq (b : StickyBit) : (s.setSticky b).seq = s.seq := rfl
@[simp] theorem State.setSticky_ses (b : StickyBit) : (s.setSticky b).ses = s.ses := rfl
@[simp] theorem State.setSticky_rom (b : StickyBit) : (s.setSticky b).rom = s.rom := rfl
@[simp] theorem State.setSticky_sched (b : StickyBit) : (s.setSticky b).sched = s.sched := rfl
@[simp] theorem State.setSticky_replies (b : StickyBit) : (s.setSticky b).replies = s.replies := rfl

@[simp] theorem State.setConfigError_cfg (c : BitVec 4) : (s.setConfigError c).cfg = s.cfg := rfl
@[simp] theorem State.setConfigError_csr (c : BitVec 4) : (s.setConfigError c).csr = { s.csr with sticky := s.csr.sticky.set .config, cfgCause := c } := rfl
@[simp] theorem State.setConfigError_iq (c : BitVec 4) : (s.setConfigError c).iq = s.iq := rfl
@[simp] theorem State.setConfigError_oq (c : BitVec 4) : (s.setConfigError c).oq = s.oq := rfl
@[simp] theorem State.setConfigError_buf (c : BitVec 4) : (s.setConfigError c).buf = s.buf := rfl
@[simp] theorem State.setConfigError_dsp (c : BitVec 4) : (s.setConfigError c).dsp = s.dsp := rfl
@[simp] theorem State.setConfigError_seq (c : BitVec 4) : (s.setConfigError c).seq = s.seq := rfl
@[simp] theorem State.setConfigError_ses (c : BitVec 4) : (s.setConfigError c).ses = s.ses := rfl
@[simp] theorem State.setConfigError_rom (c : BitVec 4) : (s.setConfigError c).rom = s.rom := rfl
@[simp] theorem State.setConfigError_sched (c : BitVec 4) : (s.setConfigError c).sched = s.sched := rfl
@[simp] theorem State.setConfigError_replies (c : BitVec 4) : (s.setConfigError c).replies = s.replies := rfl

@[simp] theorem State.countDropIn_cfg (n : Nat) : (s.countDropIn n).cfg = s.cfg := rfl
@[simp] theorem State.countDropIn_iq (n : Nat) : (s.countDropIn n).iq = s.iq := rfl
@[simp] theorem State.countDropIn_oq (n : Nat) : (s.countDropIn n).oq = s.oq := rfl
@[simp] theorem State.countDropIn_buf (n : Nat) : (s.countDropIn n).buf = s.buf := rfl
@[simp] theorem State.countDropIn_dsp (n : Nat) : (s.countDropIn n).dsp = s.dsp := rfl
@[simp] theorem State.countDropIn_seq (n : Nat) : (s.countDropIn n).seq = s.seq := rfl
@[simp] theorem State.countDropIn_ses (n : Nat) : (s.countDropIn n).ses = s.ses := rfl
@[simp] theorem State.countDropIn_rom (n : Nat) : (s.countDropIn n).rom = s.rom := rfl
@[simp] theorem State.countDropIn_sched (n : Nat) : (s.countDropIn n).sched = s.sched := rfl
@[simp] theorem State.countDropIn_replies (n : Nat) : (s.countDropIn n).replies = s.replies := rfl

@[simp] theorem State.countDropOut_cfg (n : Nat) : (s.countDropOut n).cfg = s.cfg := rfl
@[simp] theorem State.countDropOut_iq (n : Nat) : (s.countDropOut n).iq = s.iq := rfl
@[simp] theorem State.countDropOut_oq (n : Nat) : (s.countDropOut n).oq = s.oq := rfl
@[simp] theorem State.countDropOut_buf (n : Nat) : (s.countDropOut n).buf = s.buf := rfl
@[simp] theorem State.countDropOut_dsp (n : Nat) : (s.countDropOut n).dsp = s.dsp := rfl
@[simp] theorem State.countDropOut_seq (n : Nat) : (s.countDropOut n).seq = s.seq := rfl
@[simp] theorem State.countDropOut_ses (n : Nat) : (s.countDropOut n).ses = s.ses := rfl
@[simp] theorem State.countDropOut_rom (n : Nat) : (s.countDropOut n).rom = s.rom := rfl
@[simp] theorem State.countDropOut_sched (n : Nat) : (s.countDropOut n).sched = s.sched := rfl
@[simp] theorem State.countDropOut_replies (n : Nat) : (s.countDropOut n).replies = s.replies := rfl

@[simp] theorem State.countUnderrun_cfg : (s.countUnderrun).cfg = s.cfg := rfl
@[simp] theorem State.countUnderrun_iq : (s.countUnderrun).iq = s.iq := rfl
@[simp] theorem State.countUnderrun_oq : (s.countUnderrun).oq = s.oq := rfl
@[simp] theorem State.countUnderrun_buf : (s.countUnderrun).buf = s.buf := rfl
@[simp] theorem State.countUnderrun_dsp : (s.countUnderrun).dsp = s.dsp := rfl
@[simp] theorem State.countUnderrun_seq : (s.countUnderrun).seq = s.seq := rfl
@[simp] theorem State.countUnderrun_ses : (s.countUnderrun).ses = s.ses := rfl
@[simp] theorem State.countUnderrun_rom : (s.countUnderrun).rom = s.rom := rfl
@[simp] theorem State.countUnderrun_sched : (s.countUnderrun).sched = s.sched := rfl
@[simp] theorem State.countUnderrun_replies : (s.countUnderrun).replies = s.replies := rfl

@[simp] theorem State.countCycle_cfg : (s.countCycle).cfg = s.cfg := rfl
@[simp] theorem State.countCycle_csr : (s.countCycle).csr = { s.csr with cntCycles := s.csr.cntCycles + 1 } := rfl
@[simp] theorem State.countCycle_iq : (s.countCycle).iq = s.iq := rfl
@[simp] theorem State.countCycle_oq : (s.countCycle).oq = s.oq := rfl
@[simp] theorem State.countCycle_buf : (s.countCycle).buf = s.buf := rfl
@[simp] theorem State.countCycle_dsp : (s.countCycle).dsp = s.dsp := rfl
@[simp] theorem State.countCycle_seq : (s.countCycle).seq = s.seq := rfl
@[simp] theorem State.countCycle_ses : (s.countCycle).ses = s.ses := rfl
@[simp] theorem State.countCycle_rom : (s.countCycle).rom = s.rom := rfl
@[simp] theorem State.countCycle_sched : (s.countCycle).sched = s.sched := rfl
@[simp] theorem State.countCycle_replies : (s.countCycle).replies = s.replies := rfl

@[simp] theorem State.clearStatus_cfg (v : Word) : (s.clearStatus v).cfg = s.cfg := rfl
@[simp] theorem State.clearStatus_iq (v : Word) : (s.clearStatus v).iq = s.iq := rfl
@[simp] theorem State.clearStatus_oq (v : Word) : (s.clearStatus v).oq = s.oq := rfl
@[simp] theorem State.clearStatus_buf (v : Word) : (s.clearStatus v).buf = s.buf := rfl
@[simp] theorem State.clearStatus_dsp (v : Word) : (s.clearStatus v).dsp = s.dsp := rfl
@[simp] theorem State.clearStatus_seq (v : Word) : (s.clearStatus v).seq = s.seq := rfl
@[simp] theorem State.clearStatus_ses (v : Word) : (s.clearStatus v).ses = s.ses := rfl
@[simp] theorem State.clearStatus_rom (v : Word) : (s.clearStatus v).rom = s.rom := rfl
@[simp] theorem State.clearStatus_sched (v : Word) : (s.clearStatus v).sched = s.sched := rfl
@[simp] theorem State.clearStatus_replies (v : Word) : (s.clearStatus v).replies = s.replies := rfl

@[simp] theorem State.setUpc_cfg (t : Nat) : (s.setUpc t).cfg = s.cfg := rfl
@[simp] theorem State.setUpc_csr (t : Nat) : (s.setUpc t).csr = s.csr := rfl
@[simp] theorem State.setUpc_iq (t : Nat) : (s.setUpc t).iq = s.iq := rfl
@[simp] theorem State.setUpc_oq (t : Nat) : (s.setUpc t).oq = s.oq := rfl
@[simp] theorem State.setUpc_buf (t : Nat) : (s.setUpc t).buf = s.buf := rfl
@[simp] theorem State.setUpc_dsp (t : Nat) : (s.setUpc t).dsp = s.dsp := rfl
@[simp] theorem State.setUpc_seq (t : Nat) : (s.setUpc t).seq = { s.seq with upc := t } := rfl
@[simp] theorem State.setUpc_ses (t : Nat) : (s.setUpc t).ses = s.ses := rfl
@[simp] theorem State.setUpc_rom (t : Nat) : (s.setUpc t).rom = s.rom := rfl
@[simp] theorem State.setUpc_sched (t : Nat) : (s.setUpc t).sched = s.sched := rfl
@[simp] theorem State.setUpc_replies (t : Nat) : (s.setUpc t).replies = s.replies := rfl

@[simp] theorem State.advance_cfg : (s.advance).cfg = s.cfg := rfl
@[simp] theorem State.advance_csr : (s.advance).csr = s.csr := rfl
@[simp] theorem State.advance_iq : (s.advance).iq = s.iq := rfl
@[simp] theorem State.advance_oq : (s.advance).oq = s.oq := rfl
@[simp] theorem State.advance_buf : (s.advance).buf = s.buf := rfl
@[simp] theorem State.advance_dsp : (s.advance).dsp = s.dsp := rfl
@[simp] theorem State.advance_seq : (s.advance).seq = { s.seq with upc := s.seq.upc + 1 } := rfl
@[simp] theorem State.advance_ses : (s.advance).ses = s.ses := rfl
@[simp] theorem State.advance_rom : (s.advance).rom = s.rom := rfl
@[simp] theorem State.advance_sched : (s.advance).sched = s.sched := rfl
@[simp] theorem State.advance_replies : (s.advance).replies = s.replies := rfl

@[simp] theorem State.forgetWork_cfg : (s.forgetWork).cfg = s.cfg := rfl
@[simp] theorem State.forgetWork_csr : (s.forgetWork).csr = s.csr := rfl
@[simp] theorem State.forgetWork_iq : (s.forgetWork).iq = s.iq := rfl
@[simp] theorem State.forgetWork_oq : (s.forgetWork).oq = s.oq := rfl
@[simp] theorem State.forgetWork_dsp : (s.forgetWork).dsp = s.dsp := rfl
@[simp] theorem State.forgetWork_seq : (s.forgetWork).seq = s.seq := rfl
@[simp] theorem State.forgetWork_ses : (s.forgetWork).ses = s.ses := rfl
@[simp] theorem State.forgetWork_rom : (s.forgetWork).rom = s.rom := rfl
@[simp] theorem State.forgetWork_sched : (s.forgetWork).sched = s.sched := rfl
@[simp] theorem State.forgetWork_replies : (s.forgetWork).replies = s.replies := rfl
@[simp] theorem State.forgetWork_buf : (s.forgetWork).buf = s.buf.forgetWork := rfl

@[simp] theorem Buffers.forgetWork_wb (b : Buffers) : b.forgetWork.wb = [] := rfl
@[simp] theorem Buffers.forgetWork_db (b : Buffers) : b.forgetWork.db = [] := rfl
@[simp] theorem Buffers.forgetWork_nb (b : Buffers) : b.forgetWork.nb = [] := rfl
@[simp] theorem Buffers.forgetWork_au (b : Buffers) : b.forgetWork.au = [] := rfl
@[simp] theorem Buffers.forgetWork_pwWb (b : Buffers) : b.forgetWork.pwWb = b.pwWb := rfl
@[simp] theorem Buffers.forgetWork_pwNb (b : Buffers) : b.forgetWork.pwNb = b.pwNb := rfl
@[simp] theorem Buffers.forgetWork_win (b : Buffers) : b.forgetWork.win = b.win := rfl
@[simp] theorem Buffers.forgetWork_winLen (b : Buffers) : b.forgetWork.winLen = b.winLen := rfl
@[simp] theorem Buffers.forgetWork_wbValid (b : Buffers) : b.forgetWork.wbValid = b.wbValid := rfl
@[simp] theorem Buffers.forgetWork_nbValid (b : Buffers) : b.forgetWork.nbValid = b.nbValid := rfl
@[simp] theorem Buffers.forgetWork_lastLenWb (b : Buffers) : b.forgetWork.lastLenWb = b.lastLenWb := rfl
@[simp] theorem Buffers.forgetWork_lastLenNb (b : Buffers) : b.forgetWork.lastLenNb = b.lastLenNb := rfl
@[simp] theorem Buffers.forgetWork_epoch (b : Buffers) : b.forgetWork.epoch = b.epoch + 1 := rfl

@[simp] theorem State.setCbuf_cfg (b : CBuf) (m : Memory C32) : (s.setCbuf b m).cfg = s.cfg := by cases b <;> rfl
@[simp] theorem State.writeC_cfg (b : CBuf) (vs : List C32) : (s.writeC b vs).cfg = s.cfg := by cases b <;> rfl
@[simp] theorem State.writeAu_cfg (vs : List F32) : (s.writeAu vs).cfg = s.cfg := rfl
@[simp] theorem State.commitPower_cfg (p : PowerBuf) (bins : List F32) (n : Nat) : (s.commitPower p bins n).cfg = s.cfg := by cases p <;> rfl
@[simp] theorem State.setCbuf_csr (b : CBuf) (m : Memory C32) : (s.setCbuf b m).csr = s.csr := by cases b <;> rfl
@[simp] theorem State.writeC_csr (b : CBuf) (vs : List C32) : (s.writeC b vs).csr = s.csr := by cases b <;> rfl
@[simp] theorem State.writeAu_csr (vs : List F32) : (s.writeAu vs).csr = s.csr := rfl
@[simp] theorem State.commitPower_csr (p : PowerBuf) (bins : List F32) (n : Nat) : (s.commitPower p bins n).csr = s.csr := by cases p <;> rfl
@[simp] theorem State.setCbuf_iq (b : CBuf) (m : Memory C32) : (s.setCbuf b m).iq = s.iq := by cases b <;> rfl
@[simp] theorem State.writeC_iq (b : CBuf) (vs : List C32) : (s.writeC b vs).iq = s.iq := by cases b <;> rfl
@[simp] theorem State.writeAu_iq (vs : List F32) : (s.writeAu vs).iq = s.iq := rfl
@[simp] theorem State.commitPower_iq (p : PowerBuf) (bins : List F32) (n : Nat) : (s.commitPower p bins n).iq = s.iq := by cases p <;> rfl
@[simp] theorem State.setCbuf_oq (b : CBuf) (m : Memory C32) : (s.setCbuf b m).oq = s.oq := by cases b <;> rfl
@[simp] theorem State.writeC_oq (b : CBuf) (vs : List C32) : (s.writeC b vs).oq = s.oq := by cases b <;> rfl
@[simp] theorem State.writeAu_oq (vs : List F32) : (s.writeAu vs).oq = s.oq := rfl
@[simp] theorem State.commitPower_oq (p : PowerBuf) (bins : List F32) (n : Nat) : (s.commitPower p bins n).oq = s.oq := by cases p <;> rfl
@[simp] theorem State.setCbuf_dsp (b : CBuf) (m : Memory C32) : (s.setCbuf b m).dsp = s.dsp := by cases b <;> rfl
@[simp] theorem State.writeC_dsp (b : CBuf) (vs : List C32) : (s.writeC b vs).dsp = s.dsp := by cases b <;> rfl
@[simp] theorem State.writeAu_dsp (vs : List F32) : (s.writeAu vs).dsp = s.dsp := rfl
@[simp] theorem State.commitPower_dsp (p : PowerBuf) (bins : List F32) (n : Nat) : (s.commitPower p bins n).dsp = s.dsp := by cases p <;> rfl
@[simp] theorem State.setCbuf_seq (b : CBuf) (m : Memory C32) : (s.setCbuf b m).seq = s.seq := by cases b <;> rfl
@[simp] theorem State.writeC_seq (b : CBuf) (vs : List C32) : (s.writeC b vs).seq = s.seq := by cases b <;> rfl
@[simp] theorem State.writeAu_seq (vs : List F32) : (s.writeAu vs).seq = s.seq := rfl
@[simp] theorem State.commitPower_seq (p : PowerBuf) (bins : List F32) (n : Nat) : (s.commitPower p bins n).seq = s.seq := by cases p <;> rfl
@[simp] theorem State.setCbuf_ses (b : CBuf) (m : Memory C32) : (s.setCbuf b m).ses = s.ses := by cases b <;> rfl
@[simp] theorem State.writeC_ses (b : CBuf) (vs : List C32) : (s.writeC b vs).ses = s.ses := by cases b <;> rfl
@[simp] theorem State.writeAu_ses (vs : List F32) : (s.writeAu vs).ses = s.ses := rfl
@[simp] theorem State.commitPower_ses (p : PowerBuf) (bins : List F32) (n : Nat) : (s.commitPower p bins n).ses = s.ses := by cases p <;> rfl
@[simp] theorem State.setCbuf_rom (b : CBuf) (m : Memory C32) : (s.setCbuf b m).rom = s.rom := by cases b <;> rfl
@[simp] theorem State.writeC_rom (b : CBuf) (vs : List C32) : (s.writeC b vs).rom = s.rom := by cases b <;> rfl
@[simp] theorem State.writeAu_rom (vs : List F32) : (s.writeAu vs).rom = s.rom := rfl
@[simp] theorem State.commitPower_rom (p : PowerBuf) (bins : List F32) (n : Nat) : (s.commitPower p bins n).rom = s.rom := by cases p <;> rfl
@[simp] theorem State.setCbuf_sched (b : CBuf) (m : Memory C32) : (s.setCbuf b m).sched = s.sched := by cases b <;> rfl
@[simp] theorem State.writeC_sched (b : CBuf) (vs : List C32) : (s.writeC b vs).sched = s.sched := by cases b <;> rfl
@[simp] theorem State.writeAu_sched (vs : List F32) : (s.writeAu vs).sched = s.sched := rfl
@[simp] theorem State.commitPower_sched (p : PowerBuf) (bins : List F32) (n : Nat) : (s.commitPower p bins n).sched = s.sched := by cases p <;> rfl
@[simp] theorem State.setCbuf_replies (b : CBuf) (m : Memory C32) : (s.setCbuf b m).replies = s.replies := by cases b <;> rfl
@[simp] theorem State.writeC_replies (b : CBuf) (vs : List C32) : (s.writeC b vs).replies = s.replies := by cases b <;> rfl
@[simp] theorem State.writeAu_replies (vs : List F32) : (s.writeAu vs).replies = s.replies := rfl
@[simp] theorem State.commitPower_replies (p : PowerBuf) (bins : List F32) (n : Nat) : (s.commitPower p bins n).replies = s.replies := by cases p <;> rfl
@[simp] theorem State.setOpen_cfg (q : QueueSel) (v : Bool) : (s.setOpen q v).cfg = s.cfg := by cases q <;> rfl
@[simp] theorem State.setOpen_csr (q : QueueSel) (v : Bool) : (s.setOpen q v).csr = s.csr := by cases q <;> rfl
@[simp] theorem State.setOpen_buf (q : QueueSel) (v : Bool) : (s.setOpen q v).buf = s.buf := by cases q <;> rfl
@[simp] theorem State.setOpen_dsp (q : QueueSel) (v : Bool) : (s.setOpen q v).dsp = s.dsp := by cases q <;> rfl
@[simp] theorem State.setOpen_seq (q : QueueSel) (v : Bool) : (s.setOpen q v).seq = s.seq := by cases q <;> rfl
@[simp] theorem State.setOpen_ses (q : QueueSel) (v : Bool) : (s.setOpen q v).ses = s.ses := by cases q <;> rfl
@[simp] theorem State.setOpen_rom (q : QueueSel) (v : Bool) : (s.setOpen q v).rom = s.rom := by cases q <;> rfl
@[simp] theorem State.setOpen_sched (q : QueueSel) (v : Bool) : (s.setOpen q v).sched = s.sched := by cases q <;> rfl
@[simp] theorem State.setOpen_replies (q : QueueSel) (v : Bool) : (s.setOpen q v).replies = s.replies := by cases q <;> rfl

@[simp] theorem State.setCbuf_same (b : CBuf) (m : Memory C32) : (s.setCbuf b m).cbuf b = m := by cases b <;> rfl

theorem State.setCbuf_other {a b : CBuf} (h : a ≠ b) (m : Memory C32) : (s.setCbuf b m).cbuf a = s.cbuf a := by
  cases a <;> cases b <;> first | rfl | exact absurd rfl h

end Sys2Proof.Machine
end

