-- ==== Sys2Proof/Machine/Assembly.lean ====
section
/-! DEFINITION. The assembly form of a command (30_encoding R165), as its mnemonic and its operands in order, and the
pseudo-instructions with their expansions (R166). -/

namespace Sys2Proof.Machine

/-- An operand as R165 writes it. -/
inductive AsmOperand
  /-- a queue, buffer or length by its name -/
  | name (text : String)
  /-- `#cnt` -/
  | count (n : Nat)
  /-- the samples of a block, between braces -/
  | samples (block : List C32)
  /-- a CSR by its register name -/
  | register (text : String)
  /-- a CSR address that names no register -/
  | address (addr : BitVec 12)
  /-- the value of a CSR_WRITE -/
  | value (v : Word)
  /-- a ROM address -/
  | target (upc : Nat)
  deriving DecidableEq, Repr

/-- One line of a listing: the port prefix, the mnemonic, the operands (30_encoding R165). -/
structure AsmLine where
  port     : Port
  mnemonic : String
  operands : List AsmOperand
  deriving DecidableEq, Repr

/-- The name column of 10_state R50. -/
def Csr.asmName : Csr → String
  | .id => "ID"
  | .ctrl => "CTRL"
  | .status => "STATUS"
  | .nFft => "N_FFT"
  | .decD => "DEC_D"
  | .audD2 => "AUD_D2"
  | .inRate => "IN_RATE"
  | .outRate => "OUT_RATE"
  | .audRate => "AUD_RATE"
  | .audioBufMs => "AUDIO_BUF_MS"
  | .gainConst => "GAIN_CONST"
  | .userOffset => "USER_OFFSET"
  | .specScale => "SPEC_SCALE"
  | .dispRange => "DISP_RANGE"
  | .wbOffset => "WB_OFFSET"
  | .nbOffset => "NB_OFFSET"
  | .iqCap => "IQ_CAP"
  | .iqAvail => "IQ_AVAIL"
  | .iqWr => "IQ_WR"
  | .iqRd => "IQ_RD"
  | .oqCap => "OQ_CAP"
  | .oqAvail => "OQ_AVAIL"
  | .oqWr => "OQ_WR"
  | .oqRd => "OQ_RD"
  | .cntQfullIn => "CNT_QFULL_IN"
  | .cntDropIn => "CNT_DROP_IN"
  | .cntQfullOut => "CNT_QFULL_OUT"
  | .cntDropOut => "CNT_DROP_OUT"
  | .cntUnderrun => "CNT_UNDERRUN"
  | .cntCycles => "CNT_CYCLES"
  | .audioGain => "AUDIO_GAIN"
  | .lastLenWb => "LAST_LEN_WB"
  | .lastLenNb => "LAST_LEN_NB"
  | .nmax => "NMAX"

/-- addr(name): the registers stand four bytes apart in the order of the map (10_state R50). -/
def Csr.addr (r : Csr) : BitVec 12 := BitVec.ofNat 12 (4 * r.ctorIdx)

def csrOperand (addr : BitVec 12) : AsmOperand :=
  match Csr.ofAddr addr with
  | some r => .register r.asmName
  | none => .address addr

def queueOperand : QueueSel → AsmOperand
  | .iq => .name "IQ"
  | .oq => .name "OQ"

def cbufOperand : CBuf → AsmOperand
  | .wb => .name "WB"
  | .db => .name "DB"
  | .nb => .name "NB"

def workBufOperand : WorkBuf → AsmOperand
  | .complex b => cbufOperand b
  | .au => .name "AU"

/-- A Power Spectrum Buffer as SPEC_POWER names it (10_state R60). -/
def powerOperand : PowerBuf → AsmOperand
  | .wide => .name "PW_WB"
  | .narrow => .name "PW_NB"

/-- A Power Spectrum Buffer as SNAP_READ names it. -/
def snapOperand : PowerBuf → AsmOperand
  | .wide => .name "WB"
  | .narrow => .name "NB"

def lenOperand : Len → AsmOperand
  | .n => .name "N"
  | .m => .name "M"
  | .k => .name "K"

/-- The assembly form of a command (30_encoding R165). -/
def Instr.assembly (i : Instr) : AsmLine :=
  match i with
  | .qwriteIq block => ⟨i.port, "QWRITE", [.name "IQ", .count block.length, .samples block]⟩
  | .qwriteOq len => ⟨i.port, "QWRITE", [.name "OQ", .name "AU", lenOperand len]⟩
  | .qread dst len => ⟨i.port, "QREAD", [.name "IQ", cbufOperand dst, lenOperand len]⟩
  | .qavail q => ⟨i.port, "QAVAIL", [queueOperand q]⟩
  | .qopen q => ⟨i.port, "QOPEN", [queueOperand q]⟩
  | .qclose q => ⟨i.port, "QCLOSE", [queueOperand q]⟩
  | .acqStart => ⟨i.port, "ACQ_START", []⟩
  | .acqStop => ⟨i.port, "ACQ_STOP", []⟩
  | .csrRead addr => ⟨i.port, "CSR_READ", [csrOperand addr]⟩
  | .csrWrite addr v => ⟨i.port, "CSR_WRITE", [csrOperand addr, .value v]⟩
  | .devFault => ⟨i.port, "DEV_FAULT", []⟩
  | .audPull frames => ⟨i.port, "AUD_PULL", [.count frames]⟩
  | .snapRead sel count => ⟨i.port, "SNAP_READ", [snapOperand sel, .count count]⟩
  | .bufCopy src dst len => ⟨i.port, "BUF_COPY", [workBufOperand src, workBufOperand dst, lenOperand len]⟩
  | .winApply dst len => ⟨i.port, "WIN_APPLY", [.name "WIN", cbufOperand dst, lenOperand len]⟩
  | .fftFwd buf len => ⟨i.port, "FFT_FWD", [cbufOperand buf, cbufOperand buf, lenOperand len]⟩
  | .specPower src dst len => ⟨i.port, "SPEC_POWER", [cbufOperand src, powerOperand dst, lenOperand len]⟩
  | .decimate0 src dst len => ⟨i.port, "DECIMATE.0", [cbufOperand src, cbufOperand dst, lenOperand len]⟩
  | .decimate1 len => ⟨i.port, "DECIMATE.1", [.name "AU", .name "AU", lenOperand len]⟩
  | .fmDemod src len => ⟨i.port, "FM_DEMOD", [cbufOperand src, .name "AU", lenOperand len]⟩
  | .lpf len => ⟨i.port, "LPF", [.name "AU", .name "AU", lenOperand len]⟩
  | .seqTop => ⟨i.port, "SEQ_TOP", []⟩
  | .seqWait => ⟨i.port, "SEQ_WAIT", []⟩
  | .seqLatch => ⟨i.port, "SEQ_LATCH", []⟩
  | .seqJshort target => ⟨i.port, "SEQ_JSHORT", [.target target]⟩
  | .seqEnd => ⟨i.port, "SEQ_END", []⟩

/-- The pseudo-instructions of 30_encoding R166. -/
inductive Pseudo
  | cfg (register : Csr) (value : Word)
  | clearErrors
  | getStatus
  | snapAll (sel : PowerBuf)
  /-- with the number of STATUS reads it takes until RUNNING reads 0 -/
  | restart (polls : Nat)
  deriving DecidableEq, Repr

/-- Whether RESTART reads STATUS again after this one (30_encoding R166). -/
def restartPollsAgain (status : Word) : Bool := status.getLsbD 0

/-- The commands a pseudo-instruction stands for (30_encoding R166). -/
def Pseudo.expand : Pseudo → List Instr
  | .cfg r v => [.csrWrite r.addr v]
  | .clearErrors => [.csrWrite 0x008 0x00007F00]
  | .getStatus => [.csrRead 0x008]
  | .snapAll sel => [.snapRead sel 0]
  | .restart polls => .acqStop :: (List.replicate polls (.csrRead 0x008) ++ [.acqStart])

end Sys2Proof.Machine
end

