-- ==== Sys2Proof/Laws/Ops.lean ====
section
/-! SUPPORT. What each shared operation can do: lengths, reads after buffer writes, the stop sequence, and which commands
can end in a fault. -/

namespace Sys2Proof.Machine

variable (s : State)

/-! ### Ends of a command -/

theorem raise_eq (port : Port) (st : Status) : raise port st s = .next (s.respond port st 0 []) := rfl

theorem illegal_eq (port : Port) : illegal port s = .next ((s.setSticky .illegal).respond port .illegal 0 []) := rfl

theorem addrError_eq (port : Port) : addrError port s = .next ((s.setSticky .addr).respond port .addrError 0 []) := rfl

theorem workerDone_eq (st : Status) (n : Nat) : workerDone st n s = .next (s.advance.respond .w st n []) := rfl

theorem abandonCycle_eq (cause : BitVec 4) :
    abandonCycle cause s = .next (((s.setConfigError cause).setUpc 0).respond .w .configError 0 []) := rfl

/-- A length within NMAX runs the micro-operation (30_encoding R146). -/
theorem withLen_of_le {len : Len} {run : Nat → Result} (h : s.len len ≤ s.cfg.nmax) :
    withLen len s run = run (s.len len) := by
  simp [withLen, Nat.not_lt.2 h]

/-- A length beyond NMAX refuses it before any access (30_encoding R146). -/
theorem withLen_of_gt {len : Len} {run : Nat → Result} (h : s.cfg.nmax < s.len len) :
    withLen len s run = illegal .w s := by
  simp [withLen, h]

/-- Whatever a micro-operation with a length answers, it is the refusal or its own run. -/
theorem withLen_cases (len : Len) (run : Nat → Result) :
    (s.cfg.nmax < s.len len ∧ withLen len s run = illegal .w s) ∨
    (s.len len ≤ s.cfg.nmax ∧ withLen len s run = run (s.len len)) := by
  rcases Nat.lt_or_ge s.cfg.nmax (s.len len) with h | h
  · exact .inl ⟨h, withLen_of_gt s h⟩
  · exact .inr ⟨h, withLen_of_le s h⟩

/-! ### Buffers -/

@[simp] theorem State.readC_length (b : CBuf) (n : Nat) : (s.readC b n).length = n := by simp [State.readC]

@[simp] theorem State.readAu_length (n : Nat) : (s.readAu n).length = n := by simp [State.readAu]

@[simp] theorem State.readWin_length (n : Nat) : (s.readWin n).length = n := by simp [State.readWin]

@[simp] theorem State.readPower_length (p : PowerBuf) (n : Nat) : (s.readPower p n).length = n := by
  cases p <;> simp [State.readPower]

theorem State.cbuf_writeC_same (b : CBuf) (vs : List C32) :
    (s.writeC b vs).cbuf b = (s.cbuf b).writeBlock 0 vs := by
  simp [State.writeC]

theorem State.cbuf_writeC_other {a b : CBuf} (h : a ≠ b) (vs : List C32) : (s.writeC b vs).cbuf a = s.cbuf a :=
  s.setCbuf_other h _

theorem State.readC_writeC_same (b : CBuf) (vs : List C32) : (s.writeC b vs).readC b vs.length = vs := by
  simp only [State.readC, State.cbuf_writeC_same]
  exact Memory.readBlock_writeBlock ..

theorem State.readAu_writeAu (vs : List F32) : (s.writeAu vs).readAu vs.length = vs :=
  Memory.readBlock_writeBlock ..

theorem State.readPower_commitPower (p : PowerBuf) (bins : List F32) (n : Nat) :
    (s.commitPower p bins n).readPower p bins.length = bins := by
  cases p <;> exact Memory.readBlock_writeBlock ..

@[simp] theorem State.powerLen_commitPower (p : PowerBuf) (bins : List F32) (n : Nat) :
    (s.commitPower p bins n).powerLen p = n := by
  cases p <;> rfl

@[simp] theorem State.powerValid_commitPower (p : PowerBuf) (bins : List F32) (n : Nat) :
    (s.commitPower p bins n).powerValid p = true := by
  cases p <;> rfl

/-! ### The stop sequence -/

theorem State.beginStop_of_running (h : s.ses.sess = .running) :
    s.beginStop =
      { s with
        iq := { s.iq with isOpen := false }
        oq := { s.oq with isOpen := false }
        ses := { s.ses with stopReq := true, sess := .stopping } } := by
  simp [State.beginStop, h]
  rfl

theorem State.beginStop_of_not_running (h : s.ses.sess ≠ .running) : s.beginStop = s := by
  simp [State.beginStop, h]

theorem stopEnabled_iff : stopEnabled s = true ↔ s.ses.sess = .stopping ∧ s.seq.wstate = .exited := by
  simp [stopEnabled]

/-! ### Which commands can stop the machine -/

theorem workerDone_ne_fault (st : Status) (n : Nat) (f : Fault) : workerDone st n s ≠ .fault f := by
  simp [workerDone]

/-- exec never refuses. -/
theorem exec_ne_refused (i : Instr) (r : Refusal) : exec i s ≠ .refused r := by
  cases i <;>
    simp only [exec, execQwriteIq, execQwriteOq, execQread, execQavail, execQopen, execQclose, execAcqStart, execAcqStop,
      execCsrRead, execCsrWrite, execDevFault, execAudPull, execSnapRead, execBufCopy, execWinApply, execFftFwd,
      execSpecPower, execDecimate0, execDecimate1, execFmDemod, execLpf, execSeqTop, execSeqWait, execSeqLatch,
      execSeqJshort, execSeqEnd, withLen, copyBuffer, raise, illegal, addrError, workerDone, abandonCycle,
      useAfterTeardown] <;>
    (repeat' split) <;> simp

/-- exec faults only as use after teardown (41_worker R226). -/
theorem exec_fault_cases {i : Instr} {f : Fault} (h : exec i s = .fault f) :
    f = .useAfterTeardown s.seq.upc ∧
      ((∃ a b l, i = .decimate0 a b l ∧ s.dsp.dec0 = none) ∨ (∃ l, i = .decimate1 l ∧ s.dsp.dec1 = none) ∨
       (∃ a l, i = .fmDemod a l ∧ s.dsp.fm = none) ∨ (∃ l, i = .lpf l ∧ s.dsp.lpf = none)) := by
  cases i <;>
    simp only [exec, execQwriteIq, execQwriteOq, execQread, execQavail, execQopen, execQclose, execAcqStart, execAcqStop,
      execCsrRead, execCsrWrite, execDevFault, execAudPull, execSnapRead, execBufCopy, execWinApply, execFftFwd,
      execSpecPower, execDecimate0, execDecimate1, execFmDemod, execLpf, execSeqTop, execSeqWait, execSeqLatch,
      execSeqJshort, execSeqEnd, withLen, copyBuffer, raise, illegal, addrError, workerDone, abandonCycle,
      useAfterTeardown] at h <;>
    (repeat' split at h) <;> simp_all

/-! ### What one step can do -/

/-- A step is the next scheduled turn, an internal turn where none is scheduled, or rest. -/
theorem step_cases :
    (∃ e rest, s.sched = e :: rest ∧ step s = runEvent e (s.setSched rest)) ∨
    (∃ e, s.sched = [] ∧ internalTurn s = some e ∧ step s = runEvent e s) ∨
    (s.sched = [] ∧ internalTurn s = none ∧ step s = .next s) := by
  unfold step runNext
  cases hs : s.sched with
  | cons e rest => exact .inl ⟨e, rest, rfl, rfl⟩
  | nil =>
    cases hi : internalTurn s with
    | some e => exact .inr (.inl ⟨e, rfl, rfl, rfl⟩)
    | none => exact .inr (.inr ⟨rfl, rfl, rfl⟩)

/-- A turn of the worker is a command of its port, an unreadable word, a fetch outside the ROM, or nothing. -/
theorem runWorker_cases :
    (s.seq.wstate ≠ .active ∧ runWorker s = .next s) ∨
    (s.seq.wstate = .active ∧ s.rom[s.seq.upc]? = none ∧ runWorker s = .fault (.romAddress s.seq.upc)) ∨
    (∃ w, s.seq.wstate = .active ∧ s.rom[s.seq.upc]? = some w ∧
      ((∃ i, decode .w w [] = .ok i ∧ runWorker s = exec i s) ∨
       (∃ r, decode .w w [] = .error r ∧ runWorker s = illegal .w s))) := by
  by_cases ha : s.seq.wstate = .active
  · cases hf : s.rom[s.seq.upc]? with
    | none => exact .inr (.inl ⟨ha, rfl, by simp [runWorker, ha, fetch, hf]⟩)
    | some w =>
      cases hd : decode .w w [] with
      | ok i => exact .inr (.inr ⟨w, ha, rfl, .inl ⟨i, hd, by simp [runWorker, ha, fetch, hf, hd]⟩⟩)
      | error r => exact .inr (.inr ⟨w, ha, rfl, .inr ⟨r, hd, by simp [runWorker, ha, fetch, hf, hd]⟩⟩)
  · exact .inl ⟨ha, by simp [runWorker, ha]⟩

/-- A register's address in the assembly form is the one the map assigns it (10_state R50). -/
theorem csr_ofAddr_addr (r : Csr) : Csr.ofAddr r.addr = some r := by cases r <;> rfl

end Sys2Proof.Machine
end

