-- ==== Sys2Proof/Laws/PerInstr.lean ====
section
/-! SUPPORT. Per-instruction laws of the encoding: the opcode field of every encoded command is its row's. -/

namespace Sys2Proof.Laws.EncodedOpcode

/-- The OP field of the encoded word is the opcode of the command's row (30_encoding R130, R144). -/
def Statement (i : Instr) : Prop := i.wf = true → opcode (encodeWord i) = i.opcode

/-- An opcode above operand bits that fit in 26 bits is the OP field of the word. -/
theorem opcode_of_parts {op rest : Nat} (hop : op < 2 ^ 6) (hrest : rest < 2 ^ 26) :
    opcode (BitVec.ofNat 32 (op * 2 ^ 26 + rest)) = op := by
  have h1 : (BitVec.ofNat 32 (op * 2 ^ 26 + rest)).toNat = op * 2 ^ 26 + rest := by
    rw [BitVec.toNat_ofNat]; omega
  unfold opcode field
  rw [h1]; omega

theorem opcode_lt (i : Instr) : i.opcode < 2 ^ 6 := by cases i <;> simp [Instr.opcode]

theorem CBuf.id_lt (b : CBuf) : b.id < 3 := by cases b <;> decide

theorem WorkBuf.id_lt (b : WorkBuf) : b.id < 4 := by rcases b with b | _ <;> [cases b <;> decide; decide]

theorem PowerBuf.id_lt (b : PowerBuf) : b.id < 6 := by cases b <;> decide

theorem PowerBuf.sel_lt (b : PowerBuf) : b.sel < 2 := by cases b <;> decide

theorem QueueSel.bit_lt (q : QueueSel) : q.bit < 2 := by cases q <;> decide

theorem Len.code_lt (l : Len) : l.code < 3 := by cases l <;> decide

theorem engineOperands_lt {src dst inst : Nat} (len : Len) (hs : src < 8) (hd : dst < 8) (hi : inst < 2) :
    engineOperands src dst len inst < 2 ^ 26 := by
  have := Len.code_lt len
  unfold engineOperands; omega

theorem qwriteIq (block : List C32) : Statement (.qwriteIq block) := fun h =>
  opcode_of_parts (opcode_lt _) (by
    have : block.length < 2 ^ 24 := by simpa [Instr.wf, countFits] using h
    simp only [Instr.operands]; omega)

theorem qwriteOq (len : Len) : Statement (.qwriteOq len) := fun _ =>
  opcode_of_parts (opcode_lt _) (by have := Len.code_lt len; simp only [Instr.operands]; omega)

theorem qread (dst : CBuf) (len : Len) : Statement (.qread dst len) := fun _ =>
  opcode_of_parts (opcode_lt _) (by
    have := Len.code_lt len; have := CBuf.id_lt dst; simp only [Instr.operands]; omega)

theorem qavail (q : QueueSel) : Statement (.qavail q) := fun _ =>
  opcode_of_parts (opcode_lt _) (by have := QueueSel.bit_lt q; simp only [Instr.operands]; omega)

theorem qopen (q : QueueSel) : Statement (.qopen q) := fun _ =>
  opcode_of_parts (opcode_lt _) (by have := QueueSel.bit_lt q; simp only [Instr.operands]; omega)

theorem qclose (q : QueueSel) : Statement (.qclose q) := fun _ =>
  opcode_of_parts (opcode_lt _) (by have := QueueSel.bit_lt q; simp only [Instr.operands]; omega)

theorem acqStart : Statement .acqStart := fun _ => opcode_of_parts (opcode_lt _) (by decide)

theorem acqStop : Statement .acqStop := fun _ => opcode_of_parts (opcode_lt _) (by decide)

theorem csrRead (addr : BitVec 12) : Statement (.csrRead addr) := fun _ =>
  opcode_of_parts (opcode_lt _) (by have := addr.isLt; simp only [Instr.operands]; omega)

theorem csrWrite (addr : BitVec 12) (value : Word) : Statement (.csrWrite addr value) := fun _ =>
  opcode_of_parts (opcode_lt _) (by have := addr.isLt; simp only [Instr.operands]; omega)

theorem devFault : Statement .devFault := fun _ => opcode_of_parts (opcode_lt _) (by decide)

theorem audPull (frames : Nat) : Statement (.audPull frames) := fun h =>
  opcode_of_parts (opcode_lt _) (by
    have : frames < 2 ^ 24 := by simpa [Instr.wf, countFits] using h
    simp only [Instr.operands]; omega)

theorem snapRead (sel : PowerBuf) (count : Nat) : Statement (.snapRead sel count) := fun h =>
  opcode_of_parts (opcode_lt _) (by
    have : count < 2 ^ 24 := by simpa [Instr.wf, countFits] using h
    have := PowerBuf.sel_lt sel
    simp only [Instr.operands]; omega)

theorem bufCopy (src dst : WorkBuf) (len : Len) : Statement (.bufCopy src dst len) := fun _ =>
  opcode_of_parts (opcode_lt _) (engineOperands_lt len
    (by have := WorkBuf.id_lt src; omega) (by have := WorkBuf.id_lt dst; omega) (by decide))

theorem winApply (dst : CBuf) (len : Len) : Statement (.winApply dst len) := fun _ =>
  opcode_of_parts (opcode_lt _) (engineOperands_lt len (by decide) (by have := CBuf.id_lt dst; omega) (by decide))

theorem fftFwd (buf : CBuf) (len : Len) : Statement (.fftFwd buf len) := fun _ =>
  opcode_of_parts (opcode_lt _) (engineOperands_lt len
    (by have := CBuf.id_lt buf; omega) (by have := CBuf.id_lt buf; omega) (by decide))

theorem specPower (src : CBuf) (dst : PowerBuf) (len : Len) : Statement (.specPower src dst len) := fun _ =>
  opcode_of_parts (opcode_lt _) (engineOperands_lt len
    (by have := CBuf.id_lt src; omega) (by have := PowerBuf.id_lt dst; omega) (by decide))

theorem decimate0 (src dst : CBuf) (len : Len) : Statement (.decimate0 src dst len) := fun _ =>
  opcode_of_parts (opcode_lt _) (engineOperands_lt len
    (by have := CBuf.id_lt src; omega) (by have := CBuf.id_lt dst; omega) (by decide))

theorem decimate1 (len : Len) : Statement (.decimate1 len) := fun _ =>
  opcode_of_parts (opcode_lt _) (engineOperands_lt len (by decide) (by decide) (by decide))

theorem fmDemod (src : CBuf) (len : Len) : Statement (.fmDemod src len) := fun _ =>
  opcode_of_parts (opcode_lt _) (engineOperands_lt len (by have := CBuf.id_lt src; omega) (by decide) (by decide))

theorem lpf (len : Len) : Statement (.lpf len) := fun _ =>
  opcode_of_parts (opcode_lt _) (engineOperands_lt len (by decide) (by decide) (by decide))

theorem seqTop : Statement .seqTop := fun _ => opcode_of_parts (opcode_lt _) (by decide)

theorem seqWait : Statement .seqWait := fun _ => opcode_of_parts (opcode_lt _) (by decide)

theorem seqLatch : Statement .seqLatch := fun _ => opcode_of_parts (opcode_lt _) (by decide)

theorem seqJshort (target : Nat) : Statement (.seqJshort target) := fun h =>
  opcode_of_parts (opcode_lt _) (by
    have : target ≤ 16 := by simpa [Instr.wf, targetFits] using h
    simp only [Instr.operands]; omega)

theorem seqEnd : Statement .seqEnd := fun _ => opcode_of_parts (opcode_lt _) (by decide)

end Sys2Proof.Laws.EncodedOpcode
end

