-- ==== Sys2Proof/Laws/Queue.lean ====
section
/-! SUPPORT. The ring and the queue primitives: what each does to the samples held, and that each keeps QueueInv. -/

namespace Sys2Proof.Machine

variable {α : Type}

/-! ### The ring -/

/-- Two positions of a ring less than a capacity apart are different cells. -/
theorem ring_ne {cap a i j : Nat} (hij : i < j) (hj : j < i + cap) : (a + i) % cap ≠ (a + j) % cap := by
  intro h
  have h1 := Nat.div_add_mod (a + i) cap
  have h2 := Nat.div_add_mod (a + j) cap
  have hlt : cap * ((a + j) / cap) = cap * ((a + i) / cap) + (j - i) := by omega
  have hdvd : cap ∣ j - i := by
    refine ⟨(a + j) / cap - (a + i) / cap, ?_⟩
    rw [Nat.mul_sub]; omega
  exact absurd (Nat.le_of_dvd (by omega) hdvd) (by omega)

theorem read_ringWrite_outside (cap : Nat) (m : Memory α) (at_ k : Nat) (vs : List α)
    (h : ∀ j, j < vs.length → (at_ + j) % cap ≠ k) : (ringWrite cap m at_ vs).read k = m.read k := by
  induction vs generalizing m at_ with
  | nil => rfl
  | cons v vs ih =>
    rw [ringWrite, ih]
    · have := h 0 (by simp)
      rw [Memory.read_write]
      simp only [Nat.add_zero] at this
      simp [Ne.symm this]
    · intro j hj
      rw [show at_ + 1 + j = at_ + (j + 1) by omega]
      exact h (j + 1) (by simpa using hj)

theorem read_ringWrite_inside (cap : Nat) (m : Memory α) (at_ j : Nat) (vs : List α) (hcap : vs.length ≤ cap)
    (h : j < vs.length) : (ringWrite cap m at_ vs).read ((at_ + j) % cap) = some vs[j] := by
  induction vs generalizing m at_ j with
  | nil => simp at h
  | cons v vs ih =>
    simp only [List.length_cons] at hcap h
    cases j with
    | zero =>
      rw [ringWrite, read_ringWrite_outside, Memory.read_write]
      · simp
      · intro j hj
        rw [show at_ + 1 + j = at_ + (j + 1) by omega]
        exact (ring_ne (by omega) (by omega)).symm
    | succ j =>
      have := ih (m.write (at_ % cap) v) (at_ + 1) j (by omega) (by omega)
      rw [show at_ + 1 + j = at_ + (j + 1) by omega] at this
      simpa [ringWrite] using this

theorem wf_ringWrite {cap : Nat} {m : Memory α} (h : Memory.wf m) (at_ : Nat) (vs : List α) :
    Memory.wf (ringWrite cap m at_ vs) := by
  induction vs generalizing m at_ with
  | nil => exact h
  | cons v vs ih => exact ih (Memory.wf_write h _ _) _

theorem below_ringWrite {cap : Nat} (hcap : 0 < cap) {m : Memory α} (h : ∀ c ∈ m, c.1 < cap) (at_ : Nat) (vs : List α) :
    ∀ c ∈ ringWrite cap m at_ vs, c.1 < cap := by
  induction vs generalizing m at_ with
  | nil => exact h
  | cons v vs ih =>
    refine ih (Memory.below_writeBlock h ?_) _
    have := Nat.mod_lt at_ hcap
    simpa using this

@[simp] theorem ringRead_length (free : Nat → α) (cap : Nat) (m : Memory α) (at_ r : Nat) :
    (ringRead free cap m at_ r).length = r := by
  simp [ringRead]

theorem ringRead_getElem (free : Nat → α) (cap : Nat) (m : Memory α) (at_ r i : Nat)
    (h : i < (ringRead free cap m at_ r).length) :
    (ringRead free cap m at_ r)[i] = (m.read ((at_ + i) % cap)).getD (free ((at_ + i) % cap)) := by
  simp [ringRead]

/-- Reading a ring in two parts. -/
theorem ringRead_add (free : Nat → α) (cap : Nat) (m : Memory α) (at_ r k : Nat) :
    ringRead free cap m at_ (r + k) = ringRead free cap m at_ r ++ ringRead free cap m ((at_ + r) % cap) k := by
  apply List.ext_getElem (by simp)
  intro i h1 h2
  simp only [ringRead_length] at h1
  by_cases hi : i < r
  · rw [List.getElem_append_left (by simpa using hi)]
    simp [ringRead_getElem]
  · rw [List.getElem_append_right (by simpa using hi)]
    simp only [ringRead_getElem, ringRead_length, Nat.mod_add_mod, show at_ + r + (i - r) = at_ + i by omega]

/-! ### QueueWrite -/

theorem queueWrite_closed (view : QueueView) (cap : Nat) {q : Queue α} (data : List α) (h : q.isOpen = false) :
    queueWrite view cap q data = { status := .closed, accepted := 0, queue := q } := by
  simp [queueWrite, h]

theorem queueWrite_accepted_le (view : QueueView) (cap : Nat) (q : Queue α) (data : List α) :
    (queueWrite view cap q data).accepted ≤ data.length := by
  unfold queueWrite
  split
  · exact Nat.min_le_left ..
  · exact Nat.zero_le _

/-- The status says exactly whether the queue was open and whether all was accepted (40_queue R174). -/
theorem queueWrite_status (view : QueueView) (cap : Nat) (q : Queue α) (data : List α) :
    (queueWrite view cap q data).status =
      if q.isOpen then (if (queueWrite view cap q data).accepted < data.length then .qfull else .ok) else .closed := by
  unfold queueWrite
  split <;> simp_all

@[simp] theorem queueWrite_isOpen (view : QueueView) (cap : Nat) (q : Queue α) (data : List α) :
    (queueWrite view cap q data).queue.isOpen = q.isOpen := by
  unfold queueWrite
  split <;> simp_all

@[simp] theorem queueWrite_rd (view : QueueView) (cap : Nat) (q : Queue α) (data : List α) :
    (queueWrite view cap q data).queue.rd = q.rd := by
  unfold queueWrite
  split <;> rfl

/-- QueueWrite keeps the invariant of the queue. -/
theorem QueueInv.write {view : QueueView} {cap : Nat} {q : Queue α} (h : QueueInv view cap q) (data : List α) :
    QueueInv view cap (queueWrite view cap q data).queue := by
  unfold queueWrite
  split
  · have hcap : 0 < cap := by have := h.rdLt; omega
    have hpv := h.pvLe
    have hav := h.availLe
    have hcv := h.cvLe
    have hk : min data.length q.pv ≤ q.pv := Nat.min_le_right ..
    generalize ha : min data.length q.pv = a at hk
    have hlen : (data.take a).length = a := by simp; omega
    refine
      { availLe := by simp; omega
        rdLt := h.rdLt
        wrEq := ?_
        cvLe := ?_
        pvLe := by simp; omega
        exactCv := fun hv => by simp [hv]
        exactPv := fun hv => by have := h.exactPv hv; simp; omega
        bufWf := wf_ringWrite h.bufWf _ _
        inRange := below_ringWrite hcap h.inRange _ _
        held := ?_ }
    · show (q.wr + a) % cap = (q.rd + (q.avail + a)) % cap
      rw [h.wrEq, Nat.mod_add_mod, Nat.add_assoc]
    · show (if view = .exact then q.avail + a else q.cv) ≤ q.avail + a
      split <;> omega
    · intro i hi
      change i < q.avail + a at hi
      show ((ringWrite cap q.buf q.wr (data.take a)).read ((q.rd + i) % cap)).isSome = true
      by_cases hia : i < q.avail
      · rw [read_ringWrite_outside]
        · exact h.held i hia
        · intro j hj
          rw [hlen] at hj
          rw [h.wrEq, Nat.mod_add_mod, Nat.add_assoc]
          exact (ring_ne (by omega) (by omega)).symm
      · have := read_ringWrite_inside cap q.buf q.wr (i - q.avail) (data.take a) (by omega) (by omega)
        rw [h.wrEq, Nat.mod_add_mod, show q.rd + q.avail + (i - q.avail) = q.rd + i by omega, ← h.wrEq] at this
        simp [this]
  · exact h

/-- QueueWrite appends the accepted prefix to what the queue holds (40_queue R172). -/
theorem QueueInv.items_write {view : QueueView} {cap : Nat} {q : Queue α} (h : QueueInv view cap q) (free : Nat → α)
    (data : List α) :
    (queueWrite view cap q data).queue.items free cap =
      q.items free cap ++ data.take (queueWrite view cap q data).accepted := by
  unfold queueWrite
  split
  · have hpv := h.pvLe
    have hav := h.availLe
    have hk : min data.length q.pv ≤ q.pv := Nat.min_le_right ..
    generalize ha : min data.length q.pv = a at hk
    have hlen : (data.take a).length = a := by simp; omega
    show ringRead free cap (ringWrite cap q.buf q.wr (data.take a)) q.rd (q.avail + a)
      = ringRead free cap q.buf q.rd q.avail ++ data.take a
    apply List.ext_getElem (by simp; omega)
    intro i h1 h2
    rw [ringRead_length] at h1
    rw [ringRead_getElem]
    by_cases hia : i < q.avail
    · rw [List.getElem_append_left (by simpa using hia), ringRead_getElem, read_ringWrite_outside]
      intro j hj
      rw [hlen] at hj
      rw [h.wrEq, Nat.mod_add_mod, Nat.add_assoc]
      exact (ring_ne (by omega) (by omega)).symm
    · rw [List.getElem_append_right (by simpa using hia)]
      have := read_ringWrite_inside cap q.buf q.wr (i - q.avail) (data.take a) (by omega) (by omega)
      rw [h.wrEq, Nat.mod_add_mod, show q.rd + q.avail + (i - q.avail) = q.rd + i by omega, ← h.wrEq] at this
      simp [this]
  · simp

/-! ### QueueRead -/

theorem queueRead_closed (free : Nat → α) (view : QueueView) (cap : Nat) {q : Queue α} (max : Nat)
    (h : q.isOpen = false) : queueRead free view cap q max = { status := .closed, out := [], queue := q } := by
  simp [queueRead, h]

/-- A read never returns more than was asked for (40_queue R184). -/
theorem queueRead_out_length_le (free : Nat → α) (view : QueueView) (cap : Nat) (q : Queue α) (max : Nat) :
    (queueRead free view cap q max).out.length ≤ max := by
  unfold queueRead
  split
  · simp
  · simp

@[simp] theorem queueRead_isOpen (free : Nat → α) (view : QueueView) (cap : Nat) (q : Queue α) (max : Nat) :
    (queueRead free view cap q max).queue.isOpen = q.isOpen := by
  unfold queueRead
  split <;> simp_all

@[simp] theorem queueRead_buf (free : Nat → α) (view : QueueView) (cap : Nat) (q : Queue α) (max : Nat) :
    (queueRead free view cap q max).queue.buf = q.buf := by
  unfold queueRead
  split <;> rfl

/-- QueueRead keeps the invariant of the queue. -/
theorem QueueInv.read {view : QueueView} {cap : Nat} {q : Queue α} (h : QueueInv view cap q) (free : Nat → α)
    (max : Nat) : QueueInv view cap (queueRead free view cap q max).queue := by
  unfold queueRead
  split
  · have hcap : 0 < cap := by have := h.rdLt; omega
    have hpv := h.pvLe
    have hav := h.availLe
    have hcv := h.cvLe
    have hr : min max q.cv ≤ q.cv := Nat.min_le_right ..
    generalize min max q.cv = r at hr
    refine
      { availLe := by simp; omega
        rdLt := Nat.mod_lt _ hcap
        wrEq := ?_
        cvLe := by simp; omega
        pvLe := ?_
        exactCv := fun hv => by have := h.exactCv hv; simp; omega
        exactPv := fun hv => by simp [hv]
        bufWf := h.bufWf
        inRange := h.inRange
        held := ?_ }
    · show q.wr = ((q.rd + r) % cap + (q.avail - r)) % cap
      rw [h.wrEq, Nat.mod_add_mod, show q.rd + r + (q.avail - r) = q.rd + q.avail by omega]
    · show (if view = .exact then cap - (q.avail - r) else q.pv) ≤ cap - (q.avail - r)
      split <;> omega
    · intro i hi
      change i < q.avail - r at hi
      show (q.buf.read (((q.rd + r) % cap + i) % cap)).isSome = true
      rw [Nat.mod_add_mod, Nat.add_assoc]
      exact h.held (r + i) (by omega)
  · exact h

/-- QueueRead returns the oldest samples and leaves the others (40_queue R181). -/
theorem QueueInv.items_read {view : QueueView} {cap : Nat} {q : Queue α} (h : QueueInv view cap q) (free : Nat → α)
    (max : Nat) :
    q.items free cap =
      (queueRead free view cap q max).out ++ (queueRead free view cap q max).queue.items free cap := by
  unfold queueRead
  split
  · have hcv := h.cvLe
    have hr : min max q.cv ≤ q.cv := Nat.min_le_right ..
    show ringRead free cap q.buf q.rd q.avail
      = ringRead free cap q.buf q.rd (min max q.cv)
        ++ ringRead free cap q.buf ((q.rd + min max q.cv) % cap) (q.avail - min max q.cv)
    rw [← ringRead_add, show min max q.cv + (q.avail - min max q.cv) = q.avail by omega]
  · simp

/-! ### The other operations on a queue -/

theorem QueueInv.setOpen {view : QueueView} {cap : Nat} {q : Queue α} (h : QueueInv view cap q) (v : Bool) :
    QueueInv view cap { q with isOpen := v } :=
  ⟨h.availLe, h.rdLt, h.wrEq, h.cvLe, h.pvLe, h.exactCv, h.exactPv, h.bufWf, h.inRange, h.held⟩

theorem QueueInv.created {view : QueueView} {cap : Nat} {q : Queue α} (hcap : 0 < cap) (h : QueueInv view cap q) :
    QueueInv view cap (q.created cap) := by
  refine ⟨?_, hcap, ?_, ?_, ?_, ?_, ?_, h.bufWf, h.inRange, ?_⟩ <;> simp [Queue.created]

theorem QueueInv.destroyed {view : QueueView} {cap : Nat} {m : Memory α} (hcap : 0 < cap) (hwf : Memory.wf m)
    (hm : ∀ c ∈ m, c.1 < cap) : QueueInv view cap (Queue.destroyed cap m) := by
  refine ⟨?_, hcap, ?_, ?_, ?_, ?_, ?_, hwf, hm, ?_⟩ <;> simp [Queue.destroyed]

theorem QueueInv.sync {view : QueueView} {cap : Nat} {q : Queue α} (h : QueueInv view cap q) (cv pv : Nat) :
    QueueInv view cap (q.sync view cap cv pv) := by
  unfold Queue.sync
  split
  · rename_i hc
    obtain ⟨hv, ha⟩ := hc
    simp only [viewsAllowed, Bool.and_eq_true, decide_eq_true_eq] at ha
    refine ⟨h.availLe, h.rdLt, h.wrEq, ha.1.1.1.2, ha.1.2, ?_, ?_, h.bufWf, h.inRange, h.held⟩ <;>
      (intro hx; rw [hv] at hx; cases hx)
  · exact h

end Sys2Proof.Machine
end

