-- ==== Sys2Proof/Tests/Slice0.lean ====
section
/-! SUPPORT. Tests: ill-formed terms refused, words written out from 30_encoding, the one-step vectors of 95_test_vectors, and
one witness for the hypotheses of each statement. -/

namespace Sys2Proof.Tests

open Sys2Proof.Machine

/-! ### Helpers -/

/-- What a step leaves, seen through `f`; none where it stops. -/
def after {α : Type} (r : Result) (f : State → α) : Option α :=
  match r with
  | .next t => some (f t)
  | .fault _ => none
  | .refused _ => none

/-- The last response: its word and its data. -/
def last (s : State) : Option (Word × List Word) := s.replies.head?.map fun r => (r.word, r.data)

/-- The instance of 95_test_vectors program P1. -/
def tiny : Params where
  nmax := 4
  capIn := 8
  capOut := 4
  h0 := [0x3F800000]
  h1 := [0x3F800000]
  h2 := [0x3F800000]
  audioGain := 0x3F000000
  fmGain := 0x3F800000
  queueView := .exact
  underrunConsume := .keep

def stopped : State :=
  { State.resetOf tiny with csr := { Csrs.reset with nFft := 4, decD := 2, audD2 := 2, inRate := 40 } }

/-- A running session of sN = 4, sD = 2, sD2 = 2, with 3 samples in IQ and 2 in OQ. -/
def running : State :=
  { stopped with
    iq := { buf := [(0, ⟨3, 0⟩), (6, ⟨1, 0⟩), (7, ⟨2, 0⟩)]
            wr := 1, rd := 6, avail := 3, isOpen := true, cv := 3, pv := 5 }
    oq := { buf := [(0, 0x40490FDB), (1, 0x3F800000)], wr := 2, rd := 0, avail := 2, isOpen := true, cv := 2, pv := 2 }
    buf := { stopped.buf with
      wb := [(0, ⟨0x3F800000, 0⟩), (1, ⟨0x3F800000, 0⟩), (2, ⟨0x3F800000, 0⟩), (3, ⟨0xBF800000, 0⟩)]
      win := [(0, 0x3F000000), (1, 0x3F000000), (2, 0x3F000000), (3, 0x3F000000)]
      winLen := 4 }
    dsp := ⟨some ⟨[], 0⟩, some ⟨[], 0⟩, some [], some ⟨0, 0⟩⟩
    seq := { wstate := .active, upc := 0, short := false, latWin := false, latUo := 0 }
    ses := { sess := .running, stopReq := false, sN := 4, sD := 2, sD2 := 2, sM := 2, sK := 1 } }

def stopping : State :=
  { running with
    iq := { running.iq with isOpen := false }
    oq := { running.oq with isOpen := false }
    ses := { running.ses with sess := .stopping, stopReq := true } }

def exited : State :=
  { stopping with seq := { stopping.seq with wstate := .exited }, buf := stopping.buf.forgetWork }

/-- The worker of the running session at an address, with NB and AU filled. -/
def midCycle (upc : Nat) : State :=
  { running with
    seq := { running.seq with upc := upc }
    buf := { running.buf with
      db := [(0, ⟨0x3F800000, 0⟩), (1, ⟨0, 0x3F800000⟩), (2, ⟨0xBF800000, 0⟩), (3, ⟨0, 0xBF800000⟩)]
      nb := [(0, ⟨0, 0x3F800000⟩), (1, ⟨0, 0xBF800000⟩)]
      au := [(0, 0x40000000), (1, 0x40800000)] } }

/-! ### Ill-formed terms are refused -/

theorem test_wf_refuses_count_beyond_24_bits : (Instr.audPull (2 ^ 24)).wf = false := by decide
theorem test_wf_refuses_snapshot_count_beyond_24_bits : (Instr.snapRead .wide (2 ^ 24)).wf = false := by decide
theorem test_wf_refuses_block_beyond_24_bits : countFits (2 ^ 24) = false := by decide
theorem test_wf_refuses_copy_between_element_types : (Instr.bufCopy (.complex .wb) .au .n).wf = false := by decide
theorem test_wf_refuses_target_17 : (Instr.seqJshort 17).wf = false := by decide
theorem test_wf_accepts_boundaries :
    (Instr.audPull (2 ^ 24 - 1)).wf = true ∧ (Instr.seqJshort 16).wf = true ∧ (Instr.bufCopy .au .au .k).wf = true := by
  decide

/-! ### Words written out from 30_encoding R131 and R144, field by field -/

theorem test_decode_queue_words :
    (decode .p (0b000001_0_1_000000000000000000000001#32) [0x3F800000, 0xBF800000]).toOption
      = some (.qwriteIq [⟨0x3F800000, 0xBF800000⟩]) ∧
    (decode .w (0b000001_1_0_011_10_0000000000000000000#32) []).toOption = some (.qwriteOq .k) ∧
    (decode .w (0b000010_0_1_010_01_0000000000000000000#32) []).toOption = some (.qread .nb .m) ∧
    (decode .h (0b000011_1_0_000000000000000000000000#32) []).toOption = some (.qavail .oq) ∧
    (decode .h (0b000100_0_0_000000000000000000000000#32) []).toOption = some (.qopen .iq) ∧
    (decode .h (0b000101_1_0_000000000000000000000000#32) []).toOption = some (.qclose .oq) := by decide

theorem test_decode_control_words :
    (decode .h (0b001000_00000000000000000000000000#32) []).toOption = some .acqStart ∧
    (decode .h (0b001001_00000000000000000000000000#32) []).toOption = some .acqStop ∧
    (decode .h (0b001010_00000000000000_000010000100#32) []).toOption = some (.csrRead 0x084) ∧
    (decode .h (0b001011_00000000000000_000000001100#32) [8]).toOption = some (.csrWrite 0x00C 8) ∧
    (decode .p (0b001100_00000000000000000000000000#32) []).toOption = some .devFault ∧
    (decode .a (0b010000_00_000000000000000000000011#32) []).toOption = some (.audPull 3) ∧
    (decode .s (0b010001_1_0_000000000000000000000101#32) []).toOption = some (.snapRead .narrow 5) := by decide

theorem test_decode_engine_words :
    (decode .w (0b100000_000_001_00_0_00000000000000000#32) []).toOption
      = some (.bufCopy (.complex .wb) (.complex .db) .n) ∧
    (decode .w (0b100001_110_000_01_0_00000000000000000#32) []).toOption = some (.winApply .wb .m) ∧
    (decode .w (0b100010_010_010_01_0_00000000000000000#32) []).toOption = some (.fftFwd .nb .m) ∧
    (decode .w (0b100011_010_101_01_0_00000000000000000#32) []).toOption = some (.specPower .nb .narrow .m) ∧
    (decode .w (0b100100_001_010_00_0_00000000000000000#32) []).toOption = some (.decimate0 .db .nb .n) ∧
    (decode .w (0b100100_011_011_01_1_00000000000000000#32) []).toOption = some (.decimate1 .m) ∧
    (decode .w (0b100101_010_011_01_0_00000000000000000#32) []).toOption = some (.fmDemod .nb .m) ∧
    (decode .w (0b100110_011_011_10_0_00000000000000000#32) []).toOption = some (.lpf .k) := by decide

theorem test_decode_sequencer_words :
    (decode .w (0b110000_00000000000000000000000000#32) []).toOption = some .seqTop ∧
    (decode .w (0b110001_00000000000000000000000000#32) []).toOption = some .seqWait ∧
    (decode .w (0b110010_00000000000000000000000000#32) []).toOption = some .seqLatch ∧
    (decode .w (0b110011_000000000000000000000_10000#32) []).toOption = some (.seqJshort 16) ∧
    (decode .w (0b110100_00000000000000000000000000#32) []).toOption = some .seqEnd := by decide

/-- The assembly column of 41_worker R229. -/
theorem test_rom_assembly :
    (microprogram.filterMap fun w => (decode .w w []).toOption.map fun i =>
        ((Instr.assembly i).mnemonic, (Instr.assembly i).operands)) =
      [("SEQ_TOP", []), ("SEQ_WAIT", []), ("QREAD", [.name "IQ", .name "WB", .name "N"]), ("SEQ_JSHORT", [.target 0]),
       ("SEQ_LATCH", []), ("BUF_COPY", [.name "WB", .name "DB", .name "N"]),
       ("WIN_APPLY", [.name "WIN", .name "WB", .name "N"]), ("FFT_FWD", [.name "WB", .name "WB", .name "N"]),
       ("SPEC_POWER", [.name "WB", .name "PW_WB", .name "N"]), ("DECIMATE.0", [.name "DB", .name "NB", .name "N"]),
       ("FM_DEMOD", [.name "NB", .name "AU", .name "M"]), ("LPF", [.name "AU", .name "AU", .name "M"]),
       ("DECIMATE.1", [.name "AU", .name "AU", .name "M"]), ("QWRITE", [.name "OQ", .name "AU", .name "K"]),
       ("FFT_FWD", [.name "NB", .name "NB", .name "M"]), ("SPEC_POWER", [.name "NB", .name "PW_NB", .name "M"]),
       ("SEQ_END", [])] := by rfl

/-- 30_encoding R166: CFG N_FFT, 8 and CLEAR_ERRORS. -/
theorem test_pseudo_instructions :
    (Pseudo.cfg .nFft 8).expand = [.csrWrite 0x00C 8] ∧ Pseudo.clearErrors.expand = [.csrWrite 0x008 0x00007F00] ∧
    (Instr.assembly (.csrWrite 0x00C 8)).operands = [.register "N_FFT", .value 8] := by decide

/-- 95_test_vectors I1 to I6. -/
theorem test_illegal_words_1_to_6 :
    accepts .h 0x00000000 [] = false ∧ accepts .h 0xFC000000 [] = false ∧ accepts .p 0x04000001 [0, 0] = false ∧
    accepts .p 0x05000002 [0, 0] = false ∧ accepts .h 0x09000000 [] = false ∧ accepts .h 0x0C000001 [] = false := by decide

/-- 95_test_vectors I7 to I11, and LS = 3 and TGT = 17. -/
theorem test_illegal_words_7_to_11 :
    accepts .h 0x28001000 [] = false ∧ accepts .a 0x41000001 [] = false ∧ accepts .s 0x45000000 [] = false ∧
    accepts .h 0x20000001 [] = false ∧ accepts .s 0x40000001 [] = false ∧ accepts .w 0x09180000 [] = false ∧
    accepts .w 0xCC000011 [] = false := by decide

/-- Little-endian bytes (20_memory R103) and the table's numbering. -/
theorem test_bytes_and_table_word :
    (decodeBytes .h [0x0C, 0x00, 0x00, 0x2C, 0x08, 0x00, 0x00, 0x00]).toOption = some (.csrWrite 0x00C 8) ∧
    decodeTableWord 64 (0x00000008 * 2 ^ 32 + 0x2C00000C) = some (.csrWrite 0x00C 8) := by decide

/-! ### One-step vectors of 95_test_vectors -/

/-- Q2's shape: a write that wraps and drops (IQ.avail = 3, capacity 8, six offered, five accepted). -/
theorem test_qwriteIq_drops :
    after (exec (.qwriteIq (List.replicate 6 ⟨9, 9⟩)) running) (fun t => (last t, t.iq.wr, t.iq.avail, t.csr.cntDropIn))
      = some (some (0x10000005, []), 6, 8, 1) := by decide

/-- Q5. -/
theorem test_qwriteIq_closed :
    after (exec (.qwriteIq [⟨9, 9⟩]) stopping) (fun t => (last t, t.iq, t.csr))
      = some (some (0x20000000, []), stopping.iq, stopping.csr) := by decide

/-- Q8's shape: one sample of two fits. -/
theorem test_qwriteOq_drops :
    after (exec (.qwriteOq .m) { midCycle 13 with oq := { running.oq with avail := 3, wr := 3, cv := 3, pv := 1 } })
      (fun t => (t.oq.avail, t.oq.buf.read 3, t.csr.cntQfullOut, t.csr.cntDropOut, t.csr.sticky.qfullOut, t.seq.upc))
      = some (4, some 0x40000000, 1, 1, true, 14) := by decide

/-- Q6's shape: a read that wraps. -/
theorem test_qread_wraps :
    after (exec (.qread .wb .m) { running with seq := { running.seq with upc := 2 } })
      (fun t => ((t.iq.rd, t.iq.avail, t.seq.short), [t.buf.wb.read 0, t.buf.wb.read 1, t.buf.wb.read 2]))
      = some ((0, 1, false), [some ⟨1, 0⟩, some ⟨2, 0⟩, some ⟨0x3F800000, 0⟩]) := by decide

/-- Q7. -/
theorem test_qread_closed :
    after (exec (.qread .wb .n) stopping) (fun t => (t.iq, t.buf.wb, t.seq.short))
      = some (stopping.iq, stopping.buf.wb, true) := by decide

/-- Q10, Q11. -/
theorem test_qavail :
    after (exec (.qavail .iq) running) last = some (some (0x00000003, [])) ∧
    after (exec (.qavail .oq) stopped) last = some (some (0x00000000, [])) := by decide

/-- Q12, Q13. -/
theorem test_qopen :
    after (exec (.qopen .oq) stopped) last = some (some (0x60000000, [])) ∧
    after (exec (.qopen .iq) { running with iq := { running.iq with isOpen := false } }) (fun t => t.iq)
      = some running.iq := by decide

/-- Q14, Q15. -/
theorem test_qclose :
    after (exec (.qclose .oq) running) (fun t => t.oq) = some { running.oq with isOpen := false } ∧
    after (exec (.qclose .iq) stopping) (fun t => (last t, t.iq)) = some (some (0, []), stopping.iq) := by decide

/-- C4's shape and C5. -/
theorem test_acqStart :
    after (exec .acqStart stopped) (fun t => (t.ses.sess, t.ses.sM, t.ses.sK, t.iq.pv, t.buf.winLen, statusWord t))
      = some (.running, 2, 1, 8, 4, 0x0000001D) ∧
    after (exec .acqStart running) last = some (some (0x60000000, [])) := by decide

/-- 43_spectrum R261: a start of length 2 leaves no coefficient of the longer window before it. -/
theorem test_acqStart_shorter_window :
    after (exec .acqStart { running with
      ses := { running.ses with sess := .stopped }
      csr := { running.csr with nFft := 2, decD := 1, audD2 := 1 } })
      (fun t => (t.buf.winLen, (t.buf.win.read 1).isSome, t.buf.win.read 2)) = some (2, true, none) := by decide

/-- C1: cause 6 from reset with CAP_OUT = 8. -/
theorem test_acqStart_cause :
    after (exec .acqStart (State.resetOf { tiny with nmax := 16384, capIn := 16384, capOut := 8 }))
      (fun t => (last t, statusWord t)) = some (some (0x40000000, []), 0x00061000) := by decide

/-- C17, C18. -/
theorem test_acqStop :
    after (exec .acqStop running) (fun t => (t.ses.sess, t.ses.stopReq, statusWord t)) = some (.stopping, true, 0x7) ∧
    after (exec .acqStop stopped) (fun t => (last t, t.ses)) = some (some (0, []), stopped.ses) := by decide

/-- C20, C21. -/
theorem test_devFault :
    after (exec .devFault running) (fun t => (last t, statusWord t)) = some (some (0x50000000, []), 0x00000807) ∧
    after (exec .devFault stopped) (fun t => (statusWord t, t.ses)) = some (0x00000800, stopped.ses) := by decide

/-- C9 to C12. -/
theorem test_csrRead :
    after (exec (.csrRead 0x000) running) last = some (some (0, [0x52530701])) ∧
    after (exec (.csrRead 0x020) stopped) last = some (some (0, [0x0000000A])) ∧
    after (exec (.csrRead 0x002) running) (fun t => (last t, t.csr.sticky.addr)) = some (some (0x80000000, []), true) ∧
    after (exec (.csrRead 0x088) running) last = some (some (0x80000000, [])) := by decide

/-- C6, C13, C14, C15. -/
theorem test_csrWrite_checks :
    after (exec (.csrWrite 0x00C 8) running) (fun t => (last t, t.csr)) = some (some (0x60000000, []), running.csr) ∧
    after (exec (.csrWrite 0x000 0) stopped) (fun t => (last t, t.csr.sticky.illegal)) = some (some (0x70000000, []), true) ∧
    after (exec (.csrWrite 0x01C 0) running) last = some (some (0x70000000, [])) ∧
    after (exec (.csrWrite 0x004 0xFFFFFFFF) running) (fun t => t.csrValue .ctrl) = some 1 := by decide

/-- C8 and C16. -/
theorem test_csrWrite_clears :
    after (exec (.csrWrite 0x008 0x00007F00) { running with csr := { running.csr with
      sticky := { running.csr.sticky with config := true }, cfgCause := 8 } }) statusWord = some 0x0000001D ∧
    after (exec (.csrWrite 0x074 0x12345678) { running with csr := { running.csr with cntCycles := 7 } })
      (fun t => t.csr.cntCycles) = some 0 := by decide

/-- A1, A3. -/
theorem test_audPull :
    after (exec (.audPull 1) running) (fun t => (last t, t.oq.avail, t.oq.rd))
      = some (some (0x00000001, [0x3FC90FDB, 0x3FC90FDB]), 1, 1) ∧
    after (exec (.audPull 2) stopped) last = some (some (0x20000002, [0, 0, 0, 0])) := by decide

/-- A2, A4, A5. -/
theorem test_audPull_underrun :
    after (exec (.audPull 3) running) (fun t => (last t, t.oq, t.csr.cntUnderrun))
      = some (some (0x30000003, [0, 0, 0, 0, 0, 0]), running.oq, 1) ∧
    after (exec (.audPull 3) { running with cfg := { tiny with underrunConsume := .discard } })
      (fun t => (t.oq.avail, t.oq.rd)) = some (0, 2) := by decide

/-- S1, S4, S5. -/
theorem test_snapRead :
    after (exec (.snapRead .wide 0) stopped) last = some (some (0x90000000, [])) ∧
    after (exec (.snapRead .narrow 0) { running with buf := { running.buf with
      pwNb := [(0, 0xFF800000), (1, 0x41F02A30)], lastLenNb := 2, nbValid := true } }) last
      = some (some (2, [0xFF800000, 0x41F02A30])) ∧
    after (exec (.snapRead .narrow 3) { running with buf := { running.buf with lastLenNb := 2, nbValid := true } })
      (fun t => (last t, t.csr.sticky.addr)) = some (some (0x80000000, []), true) := by decide

/-- W10. -/
theorem test_bufCopy :
    after (exec (.bufCopy (.complex .wb) (.complex .db) .n) running) (fun t => (t.buf.db, t.seq.upc))
      = some (running.buf.wb, 1) := by decide

/-- SP1, SP2. -/
theorem test_winApply :
    after (exec (.winApply .wb .n) { running with
      seq := { running.seq with latWin := true }
      buf := { running.buf with wb := [(0, ⟨0x40000000, 0xC0800000⟩)] } }) (fun t => t.buf.wb.read 0)
      = some (some ⟨0x3F800000, 0xC0000000⟩) ∧
    after (exec (.winApply .wb .n) running) (fun t => t.buf) = some running.buf := by decide

/-- W12. -/
theorem test_winApply_mismatch :
    after (exec (.winApply .wb .m) { running with seq := { running.seq with latWin := true, upc := 6 } })
      (fun t => (statusWord t, t.seq.upc, t.buf)) = some (0x000A101D, 0, running.buf) := by decide

/-- SP4, its lanes that are not zero. -/
theorem test_fftFwd :
    after (exec (.fftFwd .wb .n) running)
      (fun t => ((t.buf.wb.read 0).map C32.re, (t.buf.wb.read 1).map C32.im, (t.buf.wb.read 3).map C32.im))
      = some (some 0x40000000, some 0xC0000000, some 0x40000000) := by decide

/-- SP13. -/
theorem test_fftFwd_unsupported :
    after (exec (.fftFwd .wb .k) running) (fun t => (t.csr.cfgCause, t.seq.upc, t.buf)) = some (9, 0, running.buf) := by
  decide

/-- SP7. -/
theorem test_specPower :
    after (exec (.specPower .nb .narrow .m) { running with
      csr := { running.csr with nbOffset := 0x41C00000 }
      buf := { running.buf with nb := [(0, ⟨0x41200000, 0⟩), (1, ⟨0, 0⟩)] } })
      (fun t => (t.buf.pwNb.read 0, t.buf.pwNb.read 1, t.buf.lastLenNb, t.buf.nbValid))
      = some (some 0x42300000, some 0xFF800000, 2, true) := by decide

/-- DC3. -/
theorem test_decimate0 :
    after (exec (.decimate0 .db .nb .n) (midCycle 9)) (fun t => (t.buf.nb.read 0, t.buf.nb.read 1, t.dsp.dec0))
      = some (some ⟨0, 0x3F800000⟩, some ⟨0, 0xBF800000⟩, some ⟨[], 0⟩) := by decide

/-- DC1: the four-tap filter of 42_decimator R251, real lane of the outputs and of the history. -/
theorem test_decimator_four_taps :
    ((decimate (firReal [0x3E800000, 0x3E800000, 0x3E800000, 0x3E800000]) 4 2 ⟨[0, 0, 0], 0⟩
      [0x40800000, 0x41000000, 0x41400000, 0x41800000]) =
      ([0x40400000, 0x41200000], ⟨[0x41800000, 0x41400000, 0x41000000], 0⟩)) := by decide

/-- DC7's shape: the second of each pair is kept, the rest of AU stands. -/
theorem test_decimate1 :
    after (exec (.decimate1 .m) (midCycle 12)) (fun t => (t.buf.au.read 0, t.buf.au.read 1))
      = some (some 0x40800000, some 0x40800000) := by decide

/-- FM1. -/
theorem test_fmDemod :
    after (exec (.fmDemod .nb .m) (midCycle 10)) (fun t => (t.buf.au.read 0, t.buf.au.read 1, t.dsp.fm))
      = some (some 0x00000000, some 0x40490FDB, some ⟨0, 0xBF800000⟩) := by decide

/-- LP1. -/
theorem test_lpf :
    lowPass [0x3F000000, 0x3F000000] [0] [0x40000000, 0x40800000, 0x40C00000]
      = ([0x3F800000, 0x40400000, 0x40A00000], [0x40C00000]) := by decide

/-- LP4's first output (a NaN in the window), and 44_fm_audio R301 on an infinite sample where NUM has its
property. -/
theorem test_fir_non_finite :
    fIsNan (numFir [0x3F800000, 0x3F800000, 0x3F800000] [0x7FC00000, 0x00000000, 0x00000000]) = true ∧
    firWith true [0x3F800000] [0xFF800000] = 0xFF800000 :=
  ⟨fIsNan_fNanOf _, by decide⟩

/-- 41_worker R226. -/
theorem test_use_after_teardown :
    (match exec (.lpf .m) { midCycle 11 with dsp := ⟨none, none, none, none⟩ } with
      | .fault f => some f
      | .next _ => none
      | .refused _ => none) = some (.useAfterTeardown 11) := by decide

/-- W1, W2. -/
theorem test_seqTop :
    after (exec .seqTop running) (fun t => (t.seq.upc, t.seq.wstate)) = some (1, .active) ∧
    after (exec .seqTop stopping) (fun t => (t.seq.upc, t.seq.wstate)) = some (0, .exited) := by decide

/-- W3, W5. -/
theorem test_seqWait :
    after (exec .seqWait running) id = some running ∧
    after (exec .seqWait { running with iq := { running.iq with isOpen := false } }) (fun t => t.seq.upc) = some 1 := by
  decide

/-- W6, W7: the narrow-band offset for sN = 4, sD = 2 is exact. -/
theorem test_seqLatch :
    after (exec .seqLatch running) (fun t => t.csr.nbOffset) = some 0x41C00000 ∧
    after (exec .seqLatch { running with csr := { running.csr with userOffset := 0x40A00000, winEn := true } })
      (fun t => (t.csr.nbOffset, t.seq.latWin, t.seq.latUo)) = some (0x41E80000, true, 0x40A00000) := by decide

/-- 46_control R336, with the rational 2: a NaN GAIN_CONST gives a NaN, and an infinite USER_OFFSET no finite offset where
NUM has R336's property. -/
theorem test_seqLatch_nonFinite :
    after (exec .seqLatch { running with csr := { running.csr with gainConst := 0x7FC00000 } })
      (fun t => fIsNan t.csr.wbOffset) = some true ∧
    fIsFinite (offsetWith true 0x41C00000 ⟨2, 1⟩ 0xFF800000) = false :=
  ⟨congrArg some (fIsNan_fNanOf _), fIsFinite_fNonFiniteOf _⟩

/-- W8, W9. -/
theorem test_seqJshort :
    after (exec (.seqJshort 0) { running with seq := { running.seq with upc := 3, short := true } }) (fun t => t.seq.upc)
      = some 0 ∧
    after (exec (.seqJshort 0) { running with seq := { running.seq with upc := 3 } }) (fun t => t.seq.upc) = some 4 := by
  decide

/-- W11. -/
theorem test_seqEnd :
    after (exec .seqEnd { running with csr := { running.csr with cntCycles := 0xFFFFFFFF } })
      (fun t => (t.csr.cntCycles, t.seq.upc)) = some (0, 0) := by decide

/-- 10_state R64: from one cycle to the next no working buffer holds a value, and the window and the bins stay. -/
theorem test_working_buffers_are_forgotten :
    after (exec .seqEnd (midCycle 16)) (fun t => [t.buf.wb.read 0, t.buf.db.read 0, t.buf.nb.read 0])
      = some [none, none, none] ∧
    after (exec .seqTop (midCycle 0)) (fun t => (t.buf.au.read 0, t.buf.win)) = some (none, running.buf.win) := by decide

/-- C19. -/
theorem test_stop_completion :
    after (runControl exited) (fun t => (t.ses.sess, t.seq.wstate, t.iq.avail, t.dsp, statusWord t))
      = some (.stopped, .off, 0, ⟨none, none, none, none⟩, 0) := by decide

/-- A placed word runs as the first instruction after reset. -/
theorem test_withFetchWord :
    after (step (State.reset.withFetchWord 32 0x28000000)) last = some (some (0, [0x52530701])) ∧
    after (step (State.reset.withFetchWord 32 0xC0000000)) (fun t => t.seq.upc) = some 1 := by decide

/-! ### Witnesses: for each statement with hypotheses, concrete states and operands that meet them, clause by clause -/

/-- The running session with a whole block in IQ and seventeen turns of the worker to come. -/
def full : State :=
  { running with
    iq := { buf := [(0, ⟨3, 0⟩), (1, ⟨4, 0⟩), (6, ⟨1, 0⟩), (7, ⟨2, 0⟩)]
            wr := 2, rd := 6, avail := 4, isOpen := true, cv := 4, pv := 4 }
    sched := List.replicate 17 .worker }

/-- IQ of the running session as its two sides may see it when views lag. -/
def lagging : Queue C32 := { running.iq with cv := 1, pv := 2 }

def lateral : State := { running with cfg := { tiny with queueView := .conservative }, iq := lagging }

/-- A session whose block is longer than the buffers. -/
def oversize : State := { running with ses := { running.ses with sN := 5 } }

/-- Bins of a commit of length 2 in PW_NB. -/
def committed : State :=
  { running with buf := { running.buf with pwNb := [(0, 0xFF800000), (1, 0x41F02A30)], lastLenNb := 2, nbValid := true } }

/-- Windowing latched with a window of two coefficients, at WIN_APPLY. -/
def mismatched : State :=
  { running with seq := { running.seq with latWin := true, upc := 6 }, buf := { running.buf with winLen := 2 } }

def tornDown : State := { midCycle 11 with dsp := ⟨none, none, none, none⟩ }

theorem queueInv_running : QueueInv .exact 8 running.iq := by constructor <;> decide
theorem queueInv_running_oq : QueueInv .exact 4 running.oq := by constructor <;> decide
theorem queueInv_full : QueueInv .exact 8 full.iq := by constructor <;> decide
theorem queueInv_closed : QueueInv .exact 8 stopping.iq := by constructor <;> decide
theorem queueInv_closed_oq : QueueInv .exact 4 stopping.oq := by constructor <;> decide
theorem queueInv_lagging : QueueInv .conservative 8 lagging := by constructor <;> decide
theorem validParams_tiny : ValidParams tiny := by constructor <;> decide
theorem validParams_reference : ValidParams Params.reference := by constructor <;> decide

theorem sessionInv_running : SessionInv running := by constructor <;> decide
theorem filtersInv_running : FiltersInv running :=
  ⟨⟨_, rfl, rfl, rfl⟩, ⟨_, rfl, rfl, rfl⟩, ⟨_, rfl, rfl⟩, rfl⟩
theorem buffersInv_running : BuffersInv running := by constructor <;> (try unfold written) <;> decide
theorem cycleInv_running : CycleInv running := by constructor <;> (try unfold written) <;> decide

theorem inv_reset : Inv State.reset where
  params := validParams_reference
  rom := rfl
  upcLt := by decide
  iq := by constructor <;> decide
  oq := by constructor <;> decide
  buffers := by constructor <;> (try unfold written) <;> decide
  lifecycle := by simp [LifecycleInv, State.reset, State.resetOf, Queue.isDestroyed, Queue.destroyed, Buffers.noWork]

theorem inv_running : Inv running where
  params := validParams_tiny
  rom := rfl
  upcLt := by decide
  iq := queueInv_running
  oq := queueInv_running_oq
  buffers := buffersInv_running
  lifecycle := ⟨rfl, rfl, sessionInv_running, filtersInv_running, cycleInv_running⟩

theorem inv_full : Inv full where
  params := validParams_tiny
  rom := rfl
  upcLt := by decide
  iq := queueInv_full
  oq := queueInv_running_oq
  buffers := by constructor <;> (try unfold written) <;> decide
  lifecycle := ⟨rfl, rfl, by constructor <;> decide, ⟨⟨_, rfl, rfl, rfl⟩, ⟨_, rfl, rfl, rfl⟩, ⟨_, rfl, rfl⟩, rfl⟩,
    by constructor <;> (try unfold written) <;> decide⟩

theorem inv_stopping : Inv stopping where
  params := validParams_tiny
  rom := rfl
  upcLt := by decide
  iq := queueInv_closed
  oq := queueInv_closed_oq
  buffers := by constructor <;> (try unfold written) <;> decide
  lifecycle := ⟨.inl rfl, rfl, rfl, rfl, by constructor <;> decide,
    ⟨⟨_, rfl, rfl, rfl⟩, ⟨_, rfl, rfl, rfl⟩, ⟨_, rfl, rfl⟩, rfl⟩, by constructor <;> (try unfold written) <;> decide⟩

theorem inv_exited : Inv exited where
  params := validParams_tiny
  rom := rfl
  upcLt := by decide
  iq := queueInv_closed
  oq := queueInv_closed_oq
  buffers := by constructor <;> (try unfold written) <;> decide
  lifecycle := ⟨.inr ⟨rfl, rfl, rfl, rfl, rfl, rfl⟩, rfl, rfl, rfl, by constructor <;> decide,
    ⟨⟨_, rfl, rfl, rfl⟩, ⟨_, rfl, rfl, rfl⟩, ⟨_, rfl, rfl⟩, rfl⟩, by constructor <;> (try unfold written) <;> decide⟩

/-- The last micro-operation of a cycle of the running session. -/
theorem inv_midCycle : Inv (midCycle 16) where
  params := validParams_tiny
  rom := rfl
  upcLt := by decide
  iq := queueInv_running
  oq := queueInv_running_oq
  buffers := by constructor <;> (try unfold written) <;> decide
  lifecycle := ⟨rfl, rfl, by constructor <;> decide, ⟨⟨_, rfl, rfl, rfl⟩, ⟨_, rfl, rfl, rfl⟩, ⟨_, rfl, rfl⟩, rfl⟩,
    by constructor <;> (try unfold written) <;> decide⟩

theorem qwriteIq_wf_of_length (block : List C32) (h : block.length = 2 ^ 24 - 1) : (Instr.qwriteIq block).wf = true := by
  simp only [Instr.wf, countFits, h]; decide

theorem witness_DecodeOfEncode :
    (∃ block : List C32, block.length = 2 ^ 24 - 1 ∧ (Instr.qwriteIq block).wf = true) ∧
    (Instr.snapRead .narrow (2 ^ 24 - 1)).wf = true ∧ (Instr.seqJshort 16).wf = true ∧
    (Instr.csrWrite 0xFFF 0xFFFFFFFF).wf = true :=
  ⟨⟨List.replicate _ ⟨1, 2⟩, List.length_replicate, qwriteIq_wf_of_length _ List.length_replicate⟩, by decide, by decide,
    by decide⟩

theorem witness_EncodeOfDecode :
    decode .p 0x05000001 [1, 2] = .ok (.qwriteIq [⟨1, 2⟩]) ∧ decode .s 0x46FFFFFF [] = .ok (.snapRead .narrow 16777215) :=
  ⟨rfl, rfl⟩

theorem witness_PayloadLengthFixedByWord :
    decode .p 0x05000002 [1, 2, 3, 4] = .ok (.qwriteIq [⟨1, 2⟩, ⟨3, 4⟩]) ∧
    decode .h 0x2C000FFF [7] = .ok (.csrWrite 0xFFF 7) ∧ decode .h 0x20000000 [] = .ok .acqStart ∧
    decode .p 0x05000000 [] = .ok (.qwriteIq []) := ⟨rfl, rfl, rfl, rfl⟩

theorem witness_PortsDecodeOnlyTheirOpcodes :
    decode .w 0xCC000010 [] = .ok (.seqJshort 16) ∧ decode .a 0x40FFFFFF [] = .ok (.audPull 16777215) := ⟨rfl, rfl⟩

theorem witness_IllegalCommandSetsOnlyErrIllegal :
    (∃ r, decode (portOfExt .h) 0x00000000 [] = .error r) ∧ (∃ r, decode (portOfExt .p) 0x05000002 [0, 0] = .error r) ∧
    0xD0000000 ∈ microprogram := ⟨⟨_, rfl⟩, ⟨_, rfl⟩, by decide⟩

theorem witness_ExactlyOneResponsePerCommand :
    2 ^ 24 - 1 < 2 ^ 24 ∧ (∃ t, exec (.qavail .iq) running = .next t) ∧ exec .seqWait running = .next running :=
  ⟨by decide, ⟨_, rfl⟩, rfl⟩

theorem witness_StepRunsTheDecodedCommand_port :
    ({ running with sched := [.command .h 0x0E000000 []] } : State).sched = .command .h 0x0E000000 [] :: [] ∧
    decode (portOfExt .h) 0x0E000000 [] = .ok (.qavail .oq) := ⟨rfl, rfl⟩

theorem witness_StepRunsTheDecodedCommand_worker :
    full.sched = .worker :: List.replicate 16 .worker ∧ full.seq.wstate = .active ∧
    full.rom[full.seq.upc]? = some 0xC0000000 ∧ decode .w 0xC0000000 [] = .ok .seqTop := ⟨rfl, rfl, rfl, rfl⟩

theorem witness_StepRunsTheDecodedCommand_unscheduled :
    (midCycle 16).sched = [] ∧ internalTurn (midCycle 16) = some .worker ∧
    (midCycle 16).rom[(midCycle 16).seq.upc]? = some 0xD0000000 ∧ decode .w 0xD0000000 [] = .ok .seqEnd :=
  ⟨rfl, rfl, rfl, rfl⟩

theorem witness_StepRunsTheDecodedCommand_rest :
    ({ exited with sched := [.worker] } : State).sched = .worker :: [] ∧ exited.seq.wstate ≠ .active := by decide

/-- A reserved opcode on port H, and one in the ROM. -/
theorem witness_StepRunsTheDecodedCommand_illegal :
    (({ running with sched := [.command .h 0x00000000 []] } : State).sched = .command .h 0x00000000 [] :: [] ∧
      ∃ r, decode (portOfExt .h) 0x00000000 [] = .error r) ∧
    (({ full with rom := [0x00000000] } : State).sched = .worker :: List.replicate 16 .worker ∧
      full.seq.wstate = .active ∧ ({ full with rom := [0x00000000] } : State).rom[full.seq.upc]? = some 0x00000000 ∧
      ∃ r, decode .w 0x00000000 [] = .error r) :=
  ⟨⟨rfl, _, rfl⟩, rfl, rfl, rfl, _, rfl⟩

theorem witness_StepRunsTheDecodedCommand_outside :
    ({ midCycle 17 with sched := [.worker] } : State).sched = .worker :: [] ∧ (midCycle 17).seq.wstate = .active ∧
    (midCycle 17).rom[(midCycle 17).seq.upc]? = none := ⟨rfl, rfl, rfl⟩

theorem witness_StepRunsTheDecodedCommand_agents :
    ({ exited with sched := [.control] } : State).sched = .control :: [] ∧
    ({ lateral with sched := [.sync .iq 2 3] } : State).sched = .sync .iq 2 3 :: [] ∧
    (exited.sched = [] ∧ exited.ses.sess = .stopping ∧ exited.seq.wstate = .exited) ∧
    (lateral.sched = [] ∧ internalTurn lateral = some (.sync .iq 3 5)) ∧
    (stopped.sched = [] ∧ internalTurn stopped = none) := by decide

theorem witness_PlacedWordRunsNext :
    (decodeTableWord 32 0x28000000 = some (.csrRead 0) ∧ (Instr.csrRead 0).port ≠ .w) ∧
    (decodeTableWord 32 0xC0000000 = some .seqTop ∧ Instr.seqTop.port = .w) := by decide

theorem witness_QueueWriteAppendsAcceptedPrefix :
    (QueueInv .exact 8 full.iq ∧ full.iq.isOpen = true) ∧ (QueueInv .exact 8 stopping.iq ∧ stopping.iq.isOpen = false) ∧
    (QueueInv .conservative 8 lagging ∧ lagging.isOpen = true) :=
  ⟨⟨queueInv_full, rfl⟩, ⟨queueInv_closed, rfl⟩, ⟨queueInv_lagging, rfl⟩⟩

theorem witness_QueueReadRemovesOldest :
    (QueueInv .exact 8 full.iq ∧ full.iq.isOpen = true) ∧ (QueueInv .exact 8 stopping.iq ∧ stopping.iq.isOpen = false) ∧
    (QueueInv .conservative 8 lagging ∧ lagging.isOpen = true) :=
  ⟨⟨queueInv_full, rfl⟩, ⟨queueInv_closed, rfl⟩, ⟨queueInv_lagging, rfl⟩⟩

theorem witness_QueueIsFirstInFirstOut :
    (0 < 8 ∧ QueueInv .exact 8 running.iq) ∧ (0 < 8 ∧ QueueInv .conservative 8 lagging) :=
  ⟨⟨by decide, queueInv_running⟩, by decide, queueInv_lagging⟩

/-- The last element of the block, and AU's element there. -/
theorem witness_QwriteOqEffect :
    (midCycle 13).len .m ≤ (midCycle 13).cfg.nmax ∧ running.len .n = running.cfg.nmax ∧ 1 < (midCycle 13).len .m ∧
    (midCycle 13).buf.au.read 1 = some 0x40800000 := by decide

theorem witness_QreadEffect :
    running.len .n = running.cfg.nmax ∧
    (queueRead (Config.unwrittenComplex .iq) .exact 8 running.iq (running.len .n)).out.length = 3 := by decide

theorem witness_QueueHostCommands : stopped.ses.sess ≠ .running ∧ running.ses.sess = .running := by decide

theorem witness_AcqStartOutcomes :
    running.ses.sess ≠ .stopped ∧ (State.reset.ses.sess = .stopped ∧ State.reset.configCheck ≠ 0) ∧
    (stopped.ses.sess = .stopped ∧ stopped.configCheck = 0 ∧ 3 < stopped.csr.nFft.toNat ∧ stopped.csr.nFft.toNat ≤ 4) := by
  decide

/-- Cause 8, the last: an IN_RATE of 1 leaves no frame in a pull. -/
theorem witness_ConfigCheckFirstCause :
    7 < 8 ∧ ({ stopped with csr := { stopped.csr with inRate := 1 } } : State).configCheck = 7 + 1 := by decide

theorem witness_StartedSessionIsWellFormed :
    stopped.ses.sess = .stopped ∧ stopped.configCheck = 0 ∧ ∃ t, exec .acqStart stopped = .next t :=
  ⟨rfl, by decide, ⟨_, rfl⟩⟩

theorem witness_ResetConfigurationStarts : ValidParams Params.reference ∧ ValidParams tiny :=
  ⟨validParams_reference, validParams_tiny⟩

theorem witness_StopCommandsEffect : running.ses.sess = .running ∧ stopping.ses.sess ≠ .running := by decide

theorem witness_StopCompletionEffect :
    (exited.ses.sess = .stopping ∧ exited.seq.wstate = .exited) ∧
    ¬ (stopping.ses.sess = .stopping ∧ stopping.seq.wstate = .exited) := by decide

theorem witness_SessionTransitions :
    (∃ t, exec .acqStart stopped = .next t) ∧ (∃ t, exec .devFault running = .next t) ∧
    (∃ t, runControl exited = .next t) ∧ (∃ t, runSync .iq 2 2 lateral = .next t) ∧ stopping.ses.stopReq = true :=
  ⟨⟨_, rfl⟩, ⟨_, rfl⟩, ⟨_, rfl⟩, ⟨_, rfl⟩, rfl⟩

/-- The first unassigned address, and a misaligned one. -/
theorem witness_CsrReadMap :
    ∀ k : Fin 34, BitVec.ofNat 12 (4 * k.val) ≠ 0x088#12 ∧ BitVec.ofNat 12 (4 * k.val) ≠ 0x083#12 := by decide

theorem witness_CsrWriteEffect :
    (0x083#12).extractLsb' 0 2 ≠ 0 ∧ 0x084#12 < 0x088#12 ∧ running.ses.sess ≠ .stopped ∧ stopped.ses.sess = .stopped := by
  decide

theorem witness_StatusBits : ∃ t, exec (.csrWrite 0x008 0x7F00) running = .next t := ⟨_, rfl⟩

theorem witness_AudPullOutcomes :
    (stopping.oq.cv ≤ stopping.oq.avail ∧ stopping.oq.isOpen = false) ∧
    (running.oq.cv ≤ running.oq.avail ∧ running.oq.isOpen = true ∧ 2 ≤ running.oq.cv ∧ running.oq.cv < 3) := by decide

theorem witness_EmptyPullIsSilence :
    (stopped.oq.avail = 0 ∧ stopped.oq.cv ≤ stopped.oq.avail) ∧
    ({ running with oq := { running.oq with rd := 2, avail := 0, cv := 0, pv := 4 } } : State).oq.avail = 0 := by decide

theorem witness_SnapReadOutcomes :
    (running.buf.nbValid = false ∧ running.buf.wbValid = false) ∧
    (committed.buf.nbValid = true ∧ committed.buf.lastLenNb < 3) ∧
    (committed.buf.nbValid = true ∧ 2 ≤ committed.buf.lastLenNb ∧ committed.buf.pwNb.read 1 = some 0x41F02A30) ∧
    ((committed.commitPower .wide [0xFF800000] 1).buf.wbValid = true ∧
      1 ≤ (committed.commitPower .wide [0xFF800000] 1).buf.lastLenWb) := by decide

theorem witness_SnapshotReturnsLastCommit :
    (∃ t, exec (.qavail .iq) committed = .next t) ∧ (∀ src len, Instr.qavail .iq ≠ .specPower src .narrow len) ∧
    (∃ t, runControl exited = .next t) ∧
    (running.len .n ≤ running.cfg.nmax ∧ ∃ t, exec (.specPower .wb .wide .n) running = .next t) :=
  ⟨⟨_, rfl⟩, fun _ _ => Instr.noConfusion, ⟨_, rfl⟩, by decide, ⟨_, rfl⟩⟩

theorem witness_OversizeLengthRefused : oversize.cfg.nmax < oversize.len .n := by decide

theorem witness_UseAfterTeardownFaults :
    tornDown.len .n ≤ tornDown.cfg.nmax ∧ tornDown.dsp.dec0 = none ∧ tornDown.dsp.dec1 = none ∧ tornDown.dsp.fm = none ∧
    tornDown.dsp.lpf = none ∧ exec (.lpf .m) tornDown = .fault (.useAfterTeardown 11) :=
  ⟨by decide, rfl, rfl, rfl, rfl, rfl⟩

theorem witness_SequencerControl :
    stopping.ses.stopReq = true ∧ stopping.iq.isOpen = false ∧ full.ses.sN ≤ full.iq.cv ∧
    (running.ses.stopReq = false ∧ running.iq.isOpen = true ∧ running.iq.cv < running.ses.sN) := by decide

theorem witness_SeqLatchEffect : 0 < running.ses.sD := by decide

theorem witness_BufCopyEffect :
    running.len .n ≤ running.cfg.nmax ∧ CBuf.wb ≠ CBuf.db ∧ 3 < running.len .n ∧
    (running.cbuf .wb).read 3 = some ⟨0xBF800000, 0⟩ ∧ running.len .n ≤ 4 := by decide

theorem witness_WinApplyOutcomes :
    (running.len .n ≤ running.cfg.nmax ∧ running.seq.latWin = false) ∧
    (mismatched.len .n ≤ mismatched.cfg.nmax ∧ mismatched.seq.latWin = true ∧ mismatched.buf.winLen ≠ mismatched.len .n) ∧
    (mismatched.len .m ≤ mismatched.cfg.nmax ∧ mismatched.buf.winLen = mismatched.len .m ∧ 1 < mismatched.len .m ∧
      (mismatched.cbuf .wb).read 1 = some ⟨0x3F800000, 0⟩ ∧ mismatched.buf.win.read 1 = some 0x3F000000) := by decide

/-- The smallest supported size, the largest (NMAX), and the size 1 that is none. -/
theorem witness_FftFwdOutcomes :
    running.len .n ≤ running.cfg.nmax ∧ (∃ j, 1 ≤ j ∧ running.len .m = 2 ^ j) ∧ (∃ j, 1 ≤ j ∧ running.len .n = 2 ^ j) ∧
    (∀ j, 1 ≤ j → running.len .k ≠ 2 ^ j) :=
  ⟨by decide, ⟨1, by decide, by decide⟩, ⟨2, by decide, by decide⟩,
    fun j h e => absurd (Nat.one_lt_two_pow (n := j) (by omega)) (by rw [← e]; decide)⟩

theorem witness_SpecPowerEffect :
    running.len .n ≤ running.cfg.nmax ∧ 3 < running.len .n ∧ (running.cbuf .wb).read 3 = some ⟨0xBF800000, 0⟩ ∧
    running.len .n ≤ 4 := by decide

theorem witness_DecimateEffect :
    (midCycle 9).len .n ≤ (midCycle 9).cfg.nmax ∧ (midCycle 9).dsp.dec0 = some ⟨[], 0⟩ ∧
    (midCycle 9).dsp.dec1 = some ⟨[], 0⟩ ∧
    ((midCycle 9).dec0Run ⟨[], 0⟩ ((midCycle 9).readC .db ((midCycle 9).len .n))).1.length = 2 := by decide

theorem witness_FmDemodEffect :
    (midCycle 10).len .m ≤ (midCycle 10).cfg.nmax ∧ (midCycle 10).dsp.fm = some ⟨0, 0⟩ ∧
    ((midCycle 10).readC .nb ((midCycle 10).len .m))[1]? = some ⟨0, 0xBF800000⟩ ∧
    ((⟨0, 0⟩ : C32) :: (midCycle 10).readC .nb ((midCycle 10).len .m))[1]? = some ⟨0, 0x3F800000⟩ := by decide

theorem witness_LpfEffect :
    ((midCycle 11).len .m ≤ (midCycle 11).cfg.nmax ∧ (midCycle 11).dsp.lpf = some [] ∧
      1 ≤ (midCycle 11).cfg.h2.length ∧ ([] : List F32).length = (midCycle 11).cfg.h2.length - 1) ∧
    ([0x40000000] : List F32).length = ({ tiny with h2 := [0x3F000000, 0x3F000000] } : Params).h2.length - 1 := by decide

theorem witness_DecimatorOutputTiming : 1 ≤ 4 ∧ 1 ≤ 2 ∧ 1 < [1, 2, 3, 4, 5].length / 2 := by decide

theorem witness_DecimatorContinuity :
    1 ≤ 4 ∧ (⟨[7, 8, 9], 1⟩ : DecState Nat).phase < 2 ∧ (⟨[7, 8, 9], 1⟩ : DecState Nat).hist.length = 4 - 1 := by decide

/-- The largest finite value and a subnormal; a NaN; an infinity against a zero, itself and a finite value. -/
theorem witness_ArithmeticRoundsToNearestEven :
    (fIsFinite 0x7F7FFFFF = true ∧ fIsFinite 0x80000001 = true) ∧ fIsNan 0x7F800001 = true ∧
    (fIsInf 0xFF800000 = true ∧ fIsNan 0x00000000 = false ∧ fIsZero 0x00000000 = true ∧ fIsNan 0x7F800000 = false ∧
      fSign 0xFF800000 ≠ fSign 0x7F800000) := by decide

theorem sublists_pair (a b : Int) : ∀ l : List Int, l.Sublist [a, b] → l = [] ∨ l = [a] ∨ l = [b] ∨ l = [a, b] := by
  intro l h
  have := List.mem_sublists.mpr h
  simpa [List.sublists] using this

/-- The four sums of the products 0.5 * 2.0 and 0.5 * 4.0. -/
theorem sums_representable : ∀ l : List Int,
    l.Sublist (List.zipWith (fun a b => fUnits a * fUnits b) [0x3F000000, 0x3F000000] [0x40000000, 0x40800000]) →
      ∃ r : F32, fIsFinite r = true ∧ fUnits r * 2 ^ 149 = l.sum := by
  intro l h
  obtain rfl | rfl | rfl | rfl := sublists_pair _ _ l h
  · exact ⟨0x00000000, by decide⟩
  · exact ⟨0x3F800000, by decide +kernel⟩
  · exact ⟨0x40000000, by decide +kernel⟩
  · exact ⟨0x40400000, by decide +kernel⟩

theorem witness_FirIsExactWhereRepresentable :
    ([0x3F000000, 0x3F000000] : List F32).length = ([0x40000000, 0x40800000] : List F32).length ∧
    (∀ a ∈ ([0x3F000000, 0x3F000000] : List F32), fIsFinite a = true) ∧
    (∀ a ∈ ([0x40000000, 0x40800000] : List F32), fIsFinite a = true) ∧
    (∀ l : List Int,
      l.Sublist (List.zipWith (fun a b => fUnits a * fUnits b) [0x3F000000, 0x3F000000] [0x40000000, 0x40800000]) →
      ∃ r : F32, fIsFinite r = true ∧ fUnits r * 2 ^ 149 = l.sum) := by
  exact ⟨rfl, List.all_eq_true.mp (show List.all _ fIsFinite = true from rfl),
    List.all_eq_true.mp (show List.all _ fIsFinite = true from rfl), sums_representable⟩

/-- The zero clause: the products +0.0 and -0.0. -/
theorem witness_FirIsExactWhereRepresentable_zero :
    (List.zipWith (fun a b => fUnits a * fUnits b) [0x3F800000, 0x40000000] [0x00000000, 0x80000000]).sum = 0 ∧
    ∃ p ∈ List.zip ([0x3F800000, 0x40000000] : List F32) [0x00000000, 0x80000000],
      ¬ ((fIsZero p.1 = true ∨ fIsZero p.2 = true) ∧ fSign p.1 ≠ fSign p.2) := by decide

/-- 2^20 and -2^20, the largest magnitudes. -/
theorem isInteger_boundary :
    (IsInteger 0x49800000 (2 ^ 20) ∧ (2 ^ 20 : Int).natAbs ≤ 2 ^ 20) ∧
    (IsInteger 0xC9800000 (-2 ^ 20) ∧ (-2 ^ 20 : Int).natAbs ≤ 2 ^ 20) := by
  unfold IsInteger; decide +kernel

theorem witness_SmallTransformsAreExact :
    let small (a : F32) (k : Int) : Prop := IsInteger a k ∧ k.natAbs ≤ 2 ^ 20
    ([⟨0x49800000, 0xC9800000⟩, ⟨0xC9800000, 0x49800000⟩].map C32.re).Forall₂ small [2 ^ 20, -2 ^ 20] ∧
    ([⟨0x49800000, 0xC9800000⟩, ⟨0xC9800000, 0x49800000⟩].map C32.im).Forall₂ small [-2 ^ 20, 2 ^ 20] :=
  ⟨.cons isInteger_boundary.1 (.cons isInteger_boundary.2 .nil), .cons isInteger_boundary.2 (.cons isInteger_boundary.1 .nil)⟩

theorem witness_SmallTransformsAreExact_four :
    let small (a : F32) (k : Int) : Prop := IsInteger a k ∧ k.natAbs ≤ 2 ^ 20
    (List.replicate 4 (⟨0x49800000, 0xC9800000⟩ : C32) |>.map C32.re).Forall₂ small [2 ^ 20, 2 ^ 20, 2 ^ 20, 2 ^ 20] ∧
    (List.replicate 4 (⟨0x49800000, 0xC9800000⟩ : C32) |>.map C32.im).Forall₂ small
      [-2 ^ 20, -2 ^ 20, -2 ^ 20, -2 ^ 20] :=
  ⟨.cons isInteger_boundary.1 (.cons isInteger_boundary.1 (.cons isInteger_boundary.1 (.cons isInteger_boundary.1 .nil))),
   .cons isInteger_boundary.2 (.cons isInteger_boundary.2 (.cons isInteger_boundary.2 (.cons isInteger_boundary.2 .nil)))⟩

theorem witness_NumericSpecialValues_db :
    fIsNan 0xFFC00000 = true ∧ (fSign 0xFF800000 = true ∧ fIsZero 0xFF800000 = false) ∧ 10 ≤ 10 ∧
    IsInteger 0x501502F9 (10 ^ 10) ∧ IsInteger 0x3F800000 (10 ^ 0) := by
  unfold IsInteger; decide +kernel

theorem witness_NumericSpecialValues_offset : fIsNan 0x7FC00000 = true ∧ fIsInf 0xFF800000 = true := by decide

/-- The four axes: x against 1 + 0i. -/
theorem witness_NumericSpecialValues_phase :
    (let f (x y : C32) : Int × Int := (fUnits x.re * fUnits y.re + fUnits x.im * fUnits y.im,
        fUnits x.im * fUnits y.re - fUnits x.re * fUnits y.im)
     ∀ x ∈ ([(⟨0x3F800000, 0⟩, 1, 0), (⟨0xBF800000, 0⟩, -1, 0), (⟨0, 0x3F800000⟩, 0, 1), (⟨0, 0xBF800000⟩, 0, -1)] :
         List (C32 × Int × Int)),
       fIsFinite x.1.re = true ∧ fIsFinite x.1.im = true ∧
       f x.1 ⟨0x3F800000, 0⟩ = (x.2.1 * 2 ^ 298, x.2.2 * 2 ^ 298)) ∧ fIsNan 0x7F800001 = true := by decide +kernel

theorem witness_ResetSatisfiesInvariant : ValidParams Params.reference ∧ ValidParams tiny :=
  ⟨validParams_reference, validParams_tiny⟩

theorem witness_EveryStepKeepsTheInvariant :
    (Inv State.reset ∧ ∃ t, step State.reset = .next t) ∧ (Inv full ∧ ∃ t, step full = .next t) ∧
    (Inv (midCycle 16) ∧ ∃ t, step (midCycle 16) = .next t) ∧ (Inv exited ∧ ∃ t, step exited = .next t) :=
  ⟨⟨inv_reset, _, rfl⟩, ⟨inv_full, _, rfl⟩, ⟨inv_midCycle, _, rfl⟩, ⟨inv_exited, _, rfl⟩⟩

theorem witness_NoErrorDuringASession : Inv (midCycle 16) ∧ ∃ t, runWorker (midCycle 16) = .next t :=
  ⟨inv_midCycle, _, rfl⟩

theorem witness_StopSequenceCompletes :
    (Inv stopping ∧ stopping.ses.sess = .stopping ∧ stopping.stopRank ≠ 0 ∧ ∃ t, runEvent .worker stopping = .next t) ∧
    (Inv exited ∧ exited.ses.sess = .stopping ∧ exited.stopRank = 0 ∧ ∃ t, runEvent .control exited = .next t) :=
  ⟨⟨inv_stopping, rfl, by decide, _, rfl⟩, inv_exited, rfl, by decide, _, rfl⟩

theorem witness_CountersChangeOnlyByTheirRules :
    (∃ t, exec .seqEnd running = .next t ∧ t.csr.cntCycles ≠ running.csr.cntCycles) ∧
    (∃ t, exec (.audPull 3) running = .next t ∧ t.csr.cntUnderrun ≠ running.csr.cntUnderrun) ∧
    (∃ t, exec (.qwriteIq (List.replicate 6 ⟨9, 9⟩)) running = .next t ∧ t.csr.cntDropIn ≠ running.csr.cntDropIn ∧
      t.csr.cntQfullIn ≠ running.csr.cntQfullIn) ∧
    (∃ t, runControl exited = .next t) :=
  ⟨⟨_, rfl, by decide⟩, ⟨_, rfl, by decide⟩, ⟨_, rfl, by decide, by decide⟩, ⟨_, rfl⟩⟩

theorem witness_RomAndParametersNeverChange : ∃ t, step full = .next t := ⟨_, rfl⟩

theorem witness_RendererIsIsolated :
    (stopping.oq = exited.oq ∧ stopping.cfg = exited.cfg) ∧
    (∃ t r, runWorker mismatched = .next t ∧ t.replies = r :: mismatched.replies ∧ r.word.extractLsb' 28 4 = 4) ∧
    (∃ t r, runWorker { oversize with seq := { oversize.seq with upc := 2 } } = .next t ∧
      t.replies = r :: oversize.replies ∧ r.word.extractLsb' 28 4 = 7) :=
  ⟨⟨rfl, rfl⟩, ⟨_, _, rfl, rfl, by decide⟩, ⟨_, _, rfl, rfl, by decide⟩⟩

theorem witness_OnlyTheirAgentsMoveSamples :
    (Inv running ∧ ∃ t, runEvent (.command .p 0x05000001 [1, 2]) running = .next t) ∧
    (Inv running ∧ ∃ t, runEvent (.command .a 0x40000002 []) running = .next t) ∧
    (Inv exited ∧ ∃ t, runEvent .control exited = .next t) :=
  ⟨⟨inv_running, _, rfl⟩, ⟨inv_running, _, rfl⟩, inv_exited, _, rfl⟩

theorem witness_PortRights :
    (Instr.devFault.port = .p ∧ ∃ t, exec .devFault running = .next t) ∧
    ((Instr.snapRead .wide 0).port = .s ∧ ∃ t, exec (.snapRead .wide 0) running = .next t) ∧
    (Instr.acqStart.port = .h ∧ ∃ t, exec .acqStart stopped = .next t) ∧
    ((Instr.qclose .iq).port = .h ∧ Instr.qclose .iq ≠ .acqStart ∧ ∃ t, exec (.qclose .iq) running = .next t) ∧
    (Instr.seqLatch.port = .w ∧ ∃ t, exec .seqLatch running = .next t) :=
  ⟨⟨rfl, _, rfl⟩, ⟨rfl, _, rfl⟩, ⟨rfl, _, rfl⟩, ⟨rfl, by decide, _, rfl⟩, rfl, _, rfl⟩

theorem witness_SynchroniserEffect :
    running.cfg.queueView = .exact ∧ lateral.cfg.queueView = .conservative ∧
    (lateral.iq.cv ≤ 3 ∧ 3 ≤ lateral.iq.avail ∧ lateral.iq.pv ≤ 5 ∧ 5 ≤ lateral.cfg.capIn - lateral.iq.avail) := by decide

theorem witness_CompleteCycleEffects :
    Inv full ∧ full.ses.sess = .running ∧ full.seq.upc = 0 ∧ full.iq.isOpen = true ∧ full.ses.sN ≤ full.iq.cv ∧
    full.sched = List.replicate 17 .worker ∧ full.dsp = ⟨some ⟨[], 0⟩, some ⟨[], 0⟩, some [], some ⟨0, 0⟩⟩ :=
  ⟨inv_full, rfl, rfl, rfl, by decide, rfl, rfl⟩

end Sys2Proof.Tests
end

section
/-! PROOFS. Rounding (00_scope R18): what roundShift, roundMag and roundInt do, and the binary32 operations by the kind of
their operands. Settles O46. -/

namespace Sys2Proof.Machine

/-! ### roundShift -/

/-- roundShift is off by at most half a unit, and only onto an even number by exactly half. -/
theorem roundShift_error (n s : Nat) :
    2 * ((roundShift n s * 2 ^ s : Nat) - n : Int).natAbs < 2 ^ s ∨
    (2 * ((roundShift n s * 2 ^ s : Nat) - n : Int).natAbs = 2 ^ s ∧ roundShift n s % 2 = 0) := by
  have hr : n % 2 ^ s < 2 ^ s := Nat.mod_lt n (Nat.two_pow_pos s)
  have hn : n / 2 ^ s * 2 ^ s + n % 2 ^ s = n := Nat.div_add_mod' n (2 ^ s)
  unfold roundShift
  dsimp only
  generalize n / 2 ^ s = q, n % 2 ^ s = r, 2 ^ s = d at *
  split
  · rw [add_one_mul]
    omega
  · omega

/-- No other multiple of 2^s is closer, and where another is as close roundShift is even. -/
theorem roundShift_nearest (n s : Nat) (x : Int) :
    ((roundShift n s : Int) * 2 ^ s - n).natAbs < (x * 2 ^ s - n).natAbs ∨
    (((roundShift n s : Int) * 2 ^ s - n).natAbs = (x * 2 ^ s - n).natAbs ∧
      (x = roundShift n s ∨ roundShift n s % 2 = 0)) := by
  rcases eq_or_ne x (roundShift n s) with rfl | hx
  · exact .inr ⟨rfl, .inl rfl⟩
  · have hgap : 2 ^ s ≤ (x * 2 ^ s - (roundShift n s : Int) * 2 ^ s).natAbs := by
      rw [← sub_mul, Int.natAbs_mul, Int.natAbs_pow]
      exact Nat.le_mul_of_pos_left _ (by omega)
    have herr := roundShift_error n s
    push_cast at herr
    omega

theorem roundShift_bounds (n s : Nat) : n / 2 ^ s ≤ roundShift n s ∧ roundShift n s ≤ n / 2 ^ s + 1 := by
  unfold roundShift
  dsimp only
  split <;> omega

/-- A multiple of 2^s is not rounded. -/
theorem roundShift_of_dvd {n s : Nat} (h : 2 ^ s ∣ n) : roundShift n s * 2 ^ s = n := by
  have hpos := Nat.two_pow_pos s
  simp only [roundShift, Nat.mod_eq_zero_of_dvd h]
  rw [if_neg (by omega), Nat.div_mul_cancel h]

/-! ### roundingShift -/

theorem le_roundingShift (n : Nat) : 149 ≤ roundingShift n := Nat.le_max_right ..

theorem lt_two_pow_roundingShift (n : Nat) : n < 2 ^ (roundingShift n + 24) :=
  Nat.lt_log2_self.trans_le (Nat.pow_le_pow_right (by decide) (by unfold roundingShift; omega))

theorem roundingShift_normal (n : Nat) : roundingShift n = 149 ∨ 2 ^ (roundingShift n + 23) ≤ n := by
  rcases le_or_gt (Nat.log2 n) 172 with h | h
  · exact .inl (by unfold roundingShift; omega)
  · have hs : roundingShift n + 23 = Nat.log2 n := by unfold roundingShift; omega
    rw [hs]
    exact .inr (Nat.log2_self_le (by rintro rfl; simp at h))

/-- 24 significant bits, or the carry out of them. -/
theorem roundShift_roundingShift_le (n : Nat) : roundShift n (roundingShift n) ≤ 2 ^ 24 := by
  have h := lt_two_pow_roundingShift n
  rw [Nat.pow_add, mul_comm, ← Nat.div_lt_iff_lt_mul (Nat.two_pow_pos _)] at h
  have := (roundShift_bounds n (roundingShift n)).2
  omega

theorem roundShift_roundingShift_normal (n : Nat) :
    roundingShift n = 149 ∨ 2 ^ 23 ≤ roundShift n (roundingShift n) := by
  refine (roundingShift_normal n).imp_right fun h => ?_
  rw [Nat.pow_add, mul_comm, ← Nat.le_div_iff_mul_le (Nat.two_pow_pos _)] at h
  exact h.trans (roundShift_bounds n _).1

/-- The 31 bits below the sign of the rounding of `n` units of 2^-298, before the overflow to infinity. -/
def roundedBits (n : Nat) : Nat := (roundingShift n - 149) * 2 ^ 23 + roundShift n (roundingShift n)

theorem roundMag_eq (sign : Bool) (n : Nat) : roundMag sign n = fPack sign (min (roundedBits n) 0x7F800000) := rfl

/-- Rounding overflows from half a last place beyond the largest finite value on. -/
theorem roundedBits_lt_iff (n : Nat) : roundedBits n < 0x7F800000 ↔ n < (2 ^ 25 - 1) * 2 ^ 401 := by
  have hle := roundShift_roundingShift_le n
  have hlo := le_roundingShift n
  have hlt := lt_two_pow_roundingShift n
  have hnorm := roundingShift_normal n
  have hQ := roundShift_roundingShift_normal n
  have hpow {a b : Nat} (h : a ≤ b) : 2 ^ a ≤ 2 ^ b := Nat.pow_le_pow_right (by decide) h
  have hone : 2 ^ 425 = 2 ^ 24 * 2 ^ 401 := by rw [← Nat.pow_add]
  have htwo : 2 ^ 426 = 2 ^ 25 * 2 ^ 401 := by rw [← Nat.pow_add]
  have hmid : 2 ^ 402 = 2 * 2 ^ 401 := by rw [← Nat.pow_succ']
  unfold roundedBits
  rcases lt_trichotomy (roundingShift n) 402 with hs | hs | hs
  · have := hpow (show roundingShift n + 24 ≤ 425 by omega)
    omega
  · rw [hs] at hQ hle ⊢
    have herr := roundShift_error n 402
    rw [hmid] at herr
    have hpos : 0 < 2 ^ 401 := by positivity
    generalize roundShift n 402 = q, 2 ^ 401 = d at *
    rcases lt_trichotomy q (2 ^ 24 - 1) with h | h | h
    · have : q * (2 * d) ≤ (2 ^ 24 - 2) * (2 * d) := Nat.mul_le_mul_right _ (by omega)
      omega
    · subst h
      omega
    · obtain rfl : q = 2 ^ 24 := by omega
      omega
  · have := hpow (show 426 ≤ roundingShift n + 23 by omega)
    omega

/-! ### Finite values -/

theorem fExp_lt (a : F32) : fExp a < 256 := Nat.mod_lt _ (by decide)

theorem fFrac_lt (a : F32) : fFrac a < 2 ^ 23 := Nat.mod_lt _ (by decide)

theorem fExp_of_finite {a : F32} (h : fIsFinite a = true) : fExp a < 255 := by
  have := fExp_lt a
  simp only [fIsFinite, bne_iff_ne] at h
  omega

/-- A pattern is its sign, exponent and fraction. -/
theorem eq_of_fields {a b : F32} (hs : fSign a = fSign b) (he : fExp a = fExp b) (hf : fFrac a = fFrac b) : a = b := by
  apply BitVec.eq_of_toNat_eq
  have ha := a.isLt
  have hb := b.isLt
  have hsign : a.toNat / 2 ^ 31 = b.toNat / 2 ^ 31 := by
    rw [fSign, fSign, Bool.eq_iff_iff, beq_iff_eq, beq_iff_eq] at hs
    omega
  simp only [fExp, fFrac] at he hf
  omega

theorem fUnits_of_neg {a : F32} (h : fSign a = true) : fUnits a = -fMag a := by simp [fUnits, h]

theorem fUnits_of_pos {a : F32} (h : fSign a = false) : fUnits a = fMag a := by simp [fUnits, h]

@[simp] theorem natAbs_fUnits (a : F32) : (fUnits a).natAbs = fMag a := by
  unfold fUnits
  split <;> simp

theorem fMag_lt_two_pow (a : F32) : fMag a < 2 ^ (23 + fExp a) := by
  have hf := fFrac_lt a
  unfold fMag
  split
  next h => simpa [h] using hf
  next h =>
    calc (2 ^ 23 + fFrac a) * 2 ^ (fExp a - 1) < 2 ^ 24 * 2 ^ (fExp a - 1) :=
          Nat.mul_lt_mul_of_pos_right (by omega) (Nat.two_pow_pos _)
      _ = 2 ^ (23 + fExp a) := by rw [← Nat.pow_add]; congr 1; omega

/-- Every magnitude is a multiple of 2^k units, or has fewer than 24 bits above them. -/
theorem fMag_granular (a : F32) (k : Nat) : 2 ^ k ∣ fMag a ∨ fMag a < 2 ^ (23 + k) := by
  rcases lt_or_ge k (fExp a) with h | h
  · left
    rw [fMag, if_neg (by omega)]
    exact (pow_dvd_pow 2 (by omega)).mul_left _
  · exact .inr ((fMag_lt_two_pow a).trans_le (Nat.pow_le_pow_right (by decide) (by omega)))

/-- Every finite magnitude lies below the overflow of R18. -/
theorem fMag_lt_of_finite {a : F32} (h : fIsFinite a = true) : fMag a * 2 ^ 149 < (2 ^ 25 - 1) * 2 ^ 401 := by
  have he := fExp_of_finite h
  have hf := fFrac_lt a
  have hmag : fMag a ≤ (2 ^ 24 - 1) * 2 ^ 253 := by
    unfold fMag
    split
    · exact hf.le.trans (by norm_num)
    · exact Nat.mul_le_mul (by omega) (Nat.pow_le_pow_right (by decide) (by omega))
  calc fMag a * 2 ^ 149 ≤ (2 ^ 24 - 1) * 2 ^ 253 * 2 ^ 149 := Nat.mul_le_mul_right _ hmag
    _ = (2 ^ 24 - 1) * 2 ^ (1 + 401) := by rw [Nat.mul_assoc, ← Nat.pow_add]
    _ = (2 ^ 24 - 1) * 2 ^ 1 * 2 ^ 401 := by rw [Nat.pow_add, ← Nat.mul_assoc]
    _ < (2 ^ 25 - 1) * 2 ^ 401 := Nat.mul_lt_mul_of_pos_right (by decide) (by positivity)

theorem fMag_lt_of_fExp_lt {a b : F32} (h : fExp a < fExp b) : fMag a < fMag b := by
  refine (fMag_lt_two_pow a).trans_le ?_
  calc 2 ^ (23 + fExp a) ≤ 2 ^ (23 + (fExp b - 1)) := Nat.pow_le_pow_right (by decide) (by omega)
    _ = 2 ^ 23 * 2 ^ (fExp b - 1) := Nat.pow_add ..
    _ ≤ fMag b := by rw [fMag, if_neg (by omega)]; exact Nat.mul_le_mul_right _ (by omega)

/-- Where the value is not 0, its sign is the sign bit. -/
theorem fSign_eq_decide {a : F32} (h : fUnits a ≠ 0) : fSign a = decide (fUnits a < 0) := by
  cases hs : fSign a with
  | false =>
    rw [fUnits_of_pos hs]
    exact (decide_eq_false (Int.natCast_nonneg _).not_gt).symm
  | true =>
    rw [fUnits_of_neg hs] at h ⊢
    exact (decide_eq_true (by omega)).symm

/-- A finite value other than 0 has one pattern. -/
theorem eq_of_fUnits_eq {a b : F32} (h : fUnits a = fUnits b) (h0 : fUnits b ≠ 0) : a = b := by
  have hmag : fMag a = fMag b := by rw [← natAbs_fUnits, h, natAbs_fUnits]
  have hexp : fExp a = fExp b := by
    rcases lt_trichotomy (fExp a) (fExp b) with hlt | heq | hlt
    · exact absurd hmag (fMag_lt_of_fExp_lt hlt).ne
    · exact heq
    · exact absurd hmag (fMag_lt_of_fExp_lt hlt).ne'
  have hfrac : fFrac a = fFrac b := by
    rw [fMag, fMag, hexp] at hmag
    split at hmag
    · exact hmag
    · exact Nat.add_left_cancel (Nat.eq_of_mul_eq_mul_right (Nat.two_pow_pos _) hmag)
  have hsign : fSign a = fSign b := by rw [fSign_eq_decide h0, ← h, fSign_eq_decide (h ▸ h0)]
  exact eq_of_fields hsign hexp hfrac

theorem fIsFinite_fPack (sign : Bool) {rest : Nat} (h : rest < 0x7F800000) : fIsFinite (fPack sign rest) = true := by
  simp only [fIsFinite, bne_iff_ne]
  rw [fExp_fPack _ (by omega)]
  omega

/-- A magnitude of at most 24 bits above 2^k units, normal where k is not 0, stands in the exponent and fraction fields. -/
theorem fMag_fPack (sign : Bool) {k q : Nat} (hq : q ≤ 2 ^ 24) (hn : k = 0 ∨ 2 ^ 23 ≤ q)
    (hfin : k * 2 ^ 23 + q < 0x7F800000) : fMag (fPack sign (k * 2 ^ 23 + q)) = q * 2 ^ k := by
  unfold fMag
  rw [fExp_fPack _ (by omega), fFrac_fPack _ (by omega)]
  rcases lt_or_ge q (2 ^ 23) with h | h
  · obtain rfl : k = 0 := by omega
    rw [if_pos (by omega)]
    omega
  · rw [if_neg (by omega)]
    rcases hq.lt_or_eq with h' | rfl
    · rw [show (k * 2 ^ 23 + q) / 2 ^ 23 - 1 = k by omega, show 2 ^ 23 + (k * 2 ^ 23 + q) % 2 ^ 23 = q by omega]
    · rw [show (k * 2 ^ 23 + 2 ^ 24) / 2 ^ 23 - 1 = k + 1 by omega,
        show 2 ^ 23 + (k * 2 ^ 23 + 2 ^ 24) % 2 ^ 23 = 2 ^ 23 by omega, pow_succ]
      ring

/-! ### roundMag and roundInt -/

theorem fSign_roundMag (sign : Bool) (n : Nat) : fSign (roundMag sign n) = sign := by
  rw [roundMag_eq, fSign_fPack _ (by omega)]

theorem roundMag_of_overflow (sign : Bool) {n : Nat} (h : (2 ^ 25 - 1) * 2 ^ 401 ≤ n) : roundMag sign n = fInf sign := by
  have := (roundedBits_lt_iff n).not.2 h.not_gt
  rw [roundMag_eq, fInf, Nat.min_eq_right (by omega)]

theorem roundMag_of_lt (sign : Bool) {n : Nat} (h : n < (2 ^ 25 - 1) * 2 ^ 401) :
    roundMag sign n = fPack sign (roundedBits n) := by
  rw [roundMag_eq, Nat.min_eq_left ((roundedBits_lt_iff n).2 h).le]

theorem fIsFinite_roundMag (sign : Bool) {n : Nat} (h : n < (2 ^ 25 - 1) * 2 ^ 401) :
    fIsFinite (roundMag sign n) = true := by
  rw [roundMag_of_lt sign h]
  exact fIsFinite_fPack sign ((roundedBits_lt_iff n).2 h)

/-- The magnitude of the rounding, in units of 2^-298. -/
theorem fMag_roundMag (sign : Bool) {n : Nat} (h : n < (2 ^ 25 - 1) * 2 ^ 401) :
    fMag (roundMag sign n) * 2 ^ 149 = roundShift n (roundingShift n) * 2 ^ roundingShift n := by
  have hlo := le_roundingShift n
  rw [roundMag_of_lt sign h, roundedBits, fMag_fPack sign (roundShift_roundingShift_le n)
    ((roundShift_roundingShift_normal n).imp_left (by omega)) ((roundedBits_lt_iff n).2 h), Nat.mul_assoc, ← Nat.pow_add,
    Nat.sub_add_cancel hlo]

theorem roundMag_mod_two (sign : Bool) {n : Nat} (h : n < (2 ^ 25 - 1) * 2 ^ 401) :
    (roundMag sign n).toNat % 2 = roundShift n (roundingShift n) % 2 := by
  have hb := (roundedBits_lt_iff n).2 h
  rw [roundMag_of_lt sign h, toNat_fPack sign (by omega), roundedBits]
  omega

/-- No finite value `c` is closer to `n` than the rounding, and where one is as close the rounding is even. -/
theorem roundMag_nearest (sign : Bool) {n : Nat} (hn : n < (2 ^ 25 - 1) * 2 ^ 401) {c : Int}
    (hc : ∀ k, 2 ^ k ∣ c.natAbs ∨ c.natAbs < 2 ^ (23 + k)) :
    ((fMag (roundMag sign n) : Int) * 2 ^ 149 - n).natAbs < (c * 2 ^ 149 - n).natAbs ∨
    (((fMag (roundMag sign n) : Int) * 2 ^ 149 - n).natAbs = (c * 2 ^ 149 - n).natAbs ∧
      (c = fMag (roundMag sign n) ∨ (roundMag sign n).toNat % 2 = 0)) := by
  have hmag : (fMag (roundMag sign n) : Int) * 2 ^ 149 = roundShift n (roundingShift n) * 2 ^ roundingShift n := by
    exact_mod_cast fMag_roundMag sign hn
  have hnear := roundShift_nearest n (roundingShift n)
  have hnorm := roundingShift_normal n
  rw [roundMag_mod_two sign hn, hmag]
  obtain ⟨k, hk⟩ := Nat.exists_eq_add_of_le' (le_roundingShift n)
  rw [hk] at hmag hnear hnorm ⊢
  have hcase : 2 ^ k ∣ c.natAbs ∨ (c.natAbs < 2 ^ (23 + k) ∧ 2 ^ (k + 149 + 23) ≤ n) := by
    rcases hnorm with h0 | h0
    · obtain rfl : k = 0 := by omega
      exact .inl (one_dvd _)
    · exact (hc k).imp_right (⟨·, h0⟩)
  rcases hcase with hdvd | ⟨hlt, hle⟩
  · obtain ⟨x, rfl⟩ : (2 ^ k : Int) ∣ c := by exact_mod_cast Int.natCast_dvd.2 hdvd
    have hx : 2 ^ k * x * 2 ^ 149 = x * 2 ^ (k + 149) := by ring
    rw [hx]
    refine (hnear x).imp_right (And.imp_right (Or.imp_left fun h => ?_))
    have : 2 ^ k * x * 2 ^ 149 = (fMag (roundMag sign n) : Int) * 2 ^ 149 := by rw [hx, hmag, h]
    exact mul_right_cancel₀ (by positivity) this
  · left
    have hc : c < 2 ^ (23 + k) := by
      zify at hlt
      exact (le_abs_self c).trans_lt hlt
    have hc149 : c * 2 ^ 149 < 2 ^ 23 * 2 ^ (k + 149) :=
      calc c * 2 ^ 149 < 2 ^ (23 + k) * 2 ^ 149 := mul_lt_mul_of_pos_right hc (by positivity)
        _ = 2 ^ 23 * 2 ^ (k + 149) := by ring
    have hn23 : (2 ^ 23 * 2 ^ (k + 149) : Int) ≤ n := by
      rw [← pow_add, add_comm 23]
      exact_mod_cast hle
    have := hnear (2 ^ 23)
    omega

/-- R18: the rounding of a non-zero value. -/
theorem nearestEven_roundInt (zeroSign : Bool) {v : Int} (hv : v ≠ 0) : NearestEven v (roundInt zeroSign v) := by
  rw [roundInt, if_neg hv]
  refine ⟨fSign_roundMag .., ?_⟩
  by_cases hn : v.natAbs < (2 ^ 25 - 1) * 2 ^ 401
  · rw [if_pos hn]
    refine ⟨fIsFinite_roundMag _ hn, fun c _ => ?_⟩
    rcases lt_or_gt_of_ne hv with hneg | hpos
    · have hsign : fSign (roundMag (decide (v < 0)) v.natAbs) = true := by simp [fSign_roundMag, hneg]
      have := roundMag_nearest (decide (v < 0)) hn (c := -fUnits c) (by simpa using fMag_granular c)
      rw [fUnits_of_neg hsign]
      omega
    · have hsign : fSign (roundMag (decide (v < 0)) v.natAbs) = false := by simp [fSign_roundMag, hpos.le]
      have := roundMag_nearest (decide (v < 0)) hn (c := fUnits c) (by simpa using fMag_granular c)
      rw [fUnits_of_pos hsign]
      omega
  · rw [if_neg hn, roundMag_of_overflow _ (not_lt.1 hn)]
    cases decide (v < 0) <;> rfl


@[simp] theorem roundInt_zero (zeroSign : Bool) : roundInt zeroSign 0 = fZero zeroSign := rfl

@[simp] theorem fIsFinite_fZero (sign : Bool) : fIsFinite (fZero sign) = true := by cases sign <;> rfl

@[simp] theorem fUnits_fZero (sign : Bool) : fUnits (fZero sign) = 0 := by cases sign <;> rfl

/-- The value of a finite binary32 rounds to itself. -/
theorem roundInt_exact (zeroSign : Bool) {v : Int} {r : F32} (hr : fIsFinite r = true) (hv : fUnits r * 2 ^ 149 = v) :
    fIsFinite (roundInt zeroSign v) = true ∧ fUnits (roundInt zeroSign v) * 2 ^ 149 = v := by
  rcases eq_or_ne v 0 with rfl | h0
  · simp
  · obtain ⟨-, hnear⟩ := nearestEven_roundInt zeroSign h0
    have hlt : v.natAbs < (2 ^ 25 - 1) * 2 ^ 401 := by
      rw [← hv, Int.natAbs_mul, natAbs_fUnits, Int.natAbs_pow]
      exact fMag_lt_of_finite hr
    rw [if_pos hlt] at hnear
    refine ⟨hnear.1, ?_⟩
    have := hnear.2 r hr
    omega

/-! ### Kinds of values -/

theorem fIsNan_of_finite {a : F32} (h : fIsFinite a = true) : fIsNan a = false := by
  simp only [fIsFinite, bne_iff_ne] at h
  simp [fIsNan, h]

theorem fIsInf_of_finite {a : F32} (h : fIsFinite a = true) : fIsInf a = false := by
  simp only [fIsFinite, bne_iff_ne] at h
  simp [fIsInf, h]

theorem fIsInf_iff (a : F32) : fIsInf a = true ↔ fExp a = 255 ∧ fFrac a = 0 := by simp [fIsInf]

theorem fIsFinite_of_inf {a : F32} (h : fIsInf a = true) : fIsFinite a = false := by
  simp [fIsFinite, ((fIsInf_iff a).1 h).1]

theorem fIsNan_of_inf {a : F32} (h : fIsInf a = true) : fIsNan a = false := by
  simp [fIsNan, ((fIsInf_iff a).1 h).2]

theorem fIsZero_of_inf {a : F32} (h : fIsInf a = true) : fIsZero a = false := by
  simp [fIsZero, ((fIsInf_iff a).1 h).1]

/-- An infinity is fixed by its sign. -/
theorem eq_of_inf {a b : F32} (ha : fIsInf a = true) (hb : fIsInf b = true) (hs : fSign a = fSign b) : a = b := by
  obtain ⟨ea, fa⟩ := (fIsInf_iff a).1 ha
  obtain ⟨eb, fb⟩ := (fIsInf_iff b).1 hb
  exact eq_of_fields hs (ea.trans eb.symm) (fa.trans fb.symm)

/-! ### Negation -/

@[simp] theorem fSign_fNeg (a : F32) : fSign (fNeg a) = !fSign a := by
  have hlt : a.toNat / 2 ^ 31 < 2 := by have := a.isLt; omega
  simp only [fSign, fNeg, BitVec.toNat_xor, Nat.xor_div_two_pow]
  interval_cases a.toNat / 2 ^ 31 <;> rfl

@[simp] theorem fExp_fNeg (a : F32) : fExp (fNeg a) = fExp a := by
  simp only [fExp, fNeg, BitVec.toNat_xor, Nat.xor_div_two_pow, Nat.xor_mod_two_pow]
  exact Nat.xor_zero _

@[simp] theorem fFrac_fNeg (a : F32) : fFrac (fNeg a) = fFrac a := by
  simp only [fFrac, fNeg, BitVec.toNat_xor, Nat.xor_mod_two_pow]
  exact Nat.xor_zero _

@[simp] theorem fIsFinite_fNeg (a : F32) : fIsFinite (fNeg a) = fIsFinite a := by simp [fIsFinite]

@[simp] theorem fIsInf_fNeg (a : F32) : fIsInf (fNeg a) = fIsInf a := by simp [fIsInf]

@[simp] theorem fUnits_fNeg (a : F32) : fUnits (fNeg a) = -fUnits a := by
  have : fMag (fNeg a) = fMag a := by simp [fMag]
  cases h : fSign a <;> simp [fUnits, h, this]

/-! ### The operations by the kind of their operands -/

theorem mul32_of_finite {a b : F32} (ha : fIsFinite a = true) (hb : fIsFinite b = true) :
    mul32 a b = roundInt (fSign a != fSign b) (fUnits a * fUnits b) := by
  simp [mul32, fIsNan_of_finite, fIsInf_of_finite, ha, hb]

theorem addFinite_of_finite {a b : F32} (ha : fIsFinite a = true) (hb : fIsFinite b = true) :
    addFinite a b = roundInt (fSign a && fSign b) ((fUnits a + fUnits b) * 2 ^ 149) := by
  simp [addFinite, fIsInf_of_finite, ha, hb]

theorem add32_of_finite {a b : F32} (ha : fIsFinite a = true) (hb : fIsFinite b = true) :
    add32 a b = roundInt (fSign a && fSign b) ((fUnits a + fUnits b) * 2 ^ 149) := by
  simp [add32, addFinite_of_finite, fIsNan_of_finite, fIsInf_of_finite, ha, hb]

theorem sub32_of_finite {a b : F32} (ha : fIsFinite a = true) (hb : fIsFinite b = true) :
    sub32 a b = roundInt (fSign a && !fSign b) ((fUnits a - fUnits b) * 2 ^ 149) := by
  simp [sub32, addFinite_of_finite, fIsNan_of_finite, fIsInf_of_finite, ha, hb, sub_eq_add_neg]

theorem mul32_of_nan {a b : F32} (h : fIsNan a = true ∨ fIsNan b = true) : fIsNan (mul32 a b) = true := by
  rcases h with h | h <;> simp [mul32, h]

theorem add32_of_nan {a b : F32} (h : fIsNan a = true ∨ fIsNan b = true) : fIsNan (add32 a b) = true := by
  rcases h with h | h <;> simp [add32, h]

theorem sub32_of_nan {a b : F32} (h : fIsNan a = true ∨ fIsNan b = true) : fIsNan (sub32 a b) = true := by
  rcases h with h | h <;> simp [sub32, h]

theorem mul32_inf_zero {a b : F32} (ha : fIsInf a = true) (hb : fIsZero b = true) :
    fIsNan (mul32 a b) = true ∧ fIsNan (mul32 b a) = true := by
  simp [mul32, ha, hb]

theorem mul32_inf {a b : F32} (ha : fIsInf a = true) (hb : fIsNan b = false) (hz : fIsZero b = false) :
    mul32 a b = fInf (fSign a != fSign b) ∧ mul32 b a = fInf (fSign a != fSign b) := by
  simp [mul32, ha, hb, hz, fIsNan_of_inf ha, fIsZero_of_inf ha, bne_comm]

theorem add32_opposite_inf {a b : F32} (ha : fIsInf a = true) (hb : fIsInf b = true) (hs : fSign a ≠ fSign b) :
    fIsNan (add32 a b) = true ∧ fIsNan (add32 b a) = true := by
  simp [add32, ha, hb, hs, hs.symm]

theorem addFinite_inf_left {a b : F32} (ha : fIsInf a = true) : addFinite a b = a := by simp [addFinite, ha]

theorem addFinite_inf_right {a b : F32} (hb : fIsInf b = true) (h : fIsInf a = true → fSign a = fSign b) :
    addFinite a b = b := by
  cases ha : fIsInf a with
  | false => simp [addFinite, ha, hb]
  | true => rw [addFinite_inf_left ha, eq_of_inf ha hb (h ha)]

theorem sub32_like_inf {a b : F32} (ha : fIsInf a = true) (hb : fIsInf b = true) (hs : fSign a = fSign b) :
    fIsNan (sub32 a b) = true ∧ fIsNan (sub32 b a) = true := by
  simp [sub32, ha, hb, hs]

theorem add32_eq_addFinite {a b : F32} (ha : fIsNan a = false) (hb : fIsNan b = false)
    (h : fIsInf a = true → fIsInf b = true → fSign a = fSign b) : add32 a b = addFinite a b := by
  rw [add32, if_neg (by simpa [ha, hb] using h)]

theorem sub32_eq_addFinite {a b : F32} (ha : fIsNan a = false) (hb : fIsNan b = false)
    (h : fIsInf a = true → fIsInf b = true → fSign a ≠ fSign b) : sub32 a b = addFinite a (fNeg b) := by
  rw [sub32, if_neg (by simpa [ha, hb] using h)]

theorem add32_inf {a b : F32} (ha : fIsInf a = true) (hb : fIsNan b = false)
    (h : fIsInf b = true → fSign a = fSign b) : add32 a b = a ∧ add32 b a = a := by
  rw [add32_eq_addFinite (fIsNan_of_inf ha) hb fun _ => h, add32_eq_addFinite hb (fIsNan_of_inf ha) fun h' _ => (h h').symm]
  exact ⟨addFinite_inf_left ha, addFinite_inf_right ha fun h' => (h h').symm⟩

theorem sub32_inf {a b : F32} (ha : fIsInf a = true) (hb : fIsNan b = false)
    (h : fIsInf b = true → fSign a ≠ fSign b) : sub32 a b = a ∧ sub32 b a = fNeg a := by
  rw [sub32_eq_addFinite (fIsNan_of_inf ha) hb fun _ => h, sub32_eq_addFinite hb (fIsNan_of_inf ha) fun h' _ => (h h').symm]
  exact ⟨addFinite_inf_left ha, addFinite_inf_right (by simpa using ha) fun h' => by simpa using (Bool.eq_not.2 (h h').symm)⟩

theorem roundInt_spec (zeroSign : Bool) (v : Int) :
    if v = 0 then roundInt zeroSign v = fZero zeroSign else NearestEven v (roundInt zeroSign v) := by
  split
  next h => rw [h, roundInt_zero]
  next h => exact nearestEven_roundInt zeroSign h

/-- Settles O46: each operation rounds its exact value once, and roundInt is the nearest value with ties to even. -/
theorem arithmeticRoundsToNearestEven : Obligations.ArithmeticRoundsToNearestEven := by
  intro a b
  refine ⟨fun ha hb => ⟨?_, ?_, ?_⟩, fun h => ⟨mul32_of_nan h, add32_of_nan h, sub32_of_nan h⟩,
    fun ha hb => ⟨?_, ?_, ?_⟩⟩
  · rw [mul32_of_finite ha hb]
    exact roundInt_spec ..
  · rw [add32_of_finite ha hb]
    exact roundInt_spec ..
  · rw [sub32_of_finite ha hb]
    exact roundInt_spec ..
  · split
    next hz => exact mul32_inf_zero ha hz
    next hz => exact mul32_inf ha hb (by simpa using hz)
  · split
    next h => exact add32_opposite_inf ha h.1 h.2
    next h => exact add32_inf ha hb (by simpa using h)
  · split
    next h => exact sub32_like_inf ha h.1 h.2
    next h => exact sub32_inf ha hb (by simpa using h)

end Sys2Proof.Machine
end

section
/-! PROOFS. The record NUM where 00_scope R23 fixes it. Settles O47, O48 and O49. -/

namespace Sys2Proof.Machine

/-! ### NUM.fir -/

theorem representable_of_finite {v : Int} {r : F32} (hr : fIsFinite r = true) (hv : fUnits r * 2 ^ 149 = v) :
    representable v = true := by
  simpa [representable] using roundInt_exact false hr hv

theorem firProducts_eq_zipWith (h w : List F32) : firProducts h w = List.zipWith (fun a b => fUnits a * fUnits b) h w := by
  induction h generalizing w with
  | nil => rfl
  | cons a h ih => cases w <;> simp [firProducts, ih]

theorem allNegativeZero_iff (h w : List F32) :
    allNegativeZero h w = true ↔
      ∀ p ∈ List.zip h w, (fIsZero p.1 = true ∨ fIsZero p.2 = true) ∧ fSign p.1 ≠ fSign p.2 := by
  induction h generalizing w with
  | nil => simp [allNegativeZero]
  | cons a h ih => cases w <;> simp [allNegativeZero, ih]

theorem mem_addToSums {p v : Int} {sums : List Int} (h : v ∈ addToSums p sums) : v ∈ sums ∨ ∃ u ∈ sums, v = u + p := by
  -- the fold runs over the sums it starts from, so the induction needs the two apart
  have mem_fold (l acc : List Int) (h : v ∈ l.foldl (fun acc u => if acc.contains (u + p) then acc else (u + p) :: acc) acc) :
      v ∈ acc ∨ ∃ u ∈ l, v = u + p := by
    induction l generalizing acc with
    | nil => exact .inl h
    | cons u l ih =>
      rcases ih _ h with hacc | ⟨x, hx, rfl⟩
      · dsimp only at hacc
        split at hacc
        · exact .inl hacc
        · rcases List.mem_cons.1 hacc with rfl | hacc
          · exact .inr ⟨u, List.mem_cons_self, rfl⟩
          · exact .inl hacc
      · exact .inr ⟨x, List.mem_cons_of_mem u hx, rfl⟩
  exact mem_fold sums sums h

/-- The check of R23's premise succeeds where every sum of some of the products, on top of each sum so far, is representable. -/
theorem partialSumsRepresentable_of_sublists {ps sums : List Int}
    (h : ∀ v ∈ sums, ∀ l : List Int, l.Sublist ps → representable (v + l.sum) = true) :
    partialSumsRepresentable ps sums = true := by
  have hall : sums.all representable = true :=
    List.all_eq_true.2 fun v hv => by simpa using h v hv [] (List.nil_sublist ps)
  induction ps generalizing sums with
  | nil => exact hall
  | cons p ps ih =>
    have hnext : ∀ v ∈ addToSums p sums, ∀ l : List Int, l.Sublist ps → representable (v + l.sum) = true := by
      intro v hv l hl
      rcases mem_addToSums hv with hv | ⟨u, hu, rfl⟩
      · exact h v hv l (hl.cons p)
      · simpa [add_assoc] using h u hu (p :: l) (hl.cons_cons p)
    rw [partialSumsRepresentable, hall, Bool.true_and]
    exact ih hnext (List.all_eq_true.2 fun v hv => by simpa using hnext v hv [] (List.nil_sublist ps))

/-- Settles O47: the model's check of R23's premise succeeds, so NUM.fir is the rounding of a representable sum. -/
theorem firIsExactWhereRepresentable : Obligations.FirIsExactWhereRepresentable := by
  intro h w hl hh hw products hrep
  have hexact : firExact h w = true := by
    simp only [firExact, Bool.and_eq_true, List.all_eq_true]
    refine ⟨⟨hh, hw⟩, partialSumsRepresentable_of_sublists fun v hv l hsub => ?_⟩
    obtain rfl : v = 0 := by simpa using hv
    rw [firProducts_eq_zipWith] at hsub
    obtain ⟨r, hr, hsum⟩ := hrep l hsub
    rw [zero_add]
    exact representable_of_finite hr hsum
  have hnum := numFir_of_exact hl (List.any_eq_false.2 fun a ha => by simp [fIsNan_of_finite (hw a ha)])
    (List.any_eq_false.2 fun a ha => by simp [fIsInf_of_finite (hw a ha)]) hexact
  rw [firProducts_eq_zipWith] at hnum
  obtain ⟨r, hr, hsum⟩ := hrep products (List.Sublist.refl _)
  obtain ⟨hfin, hval⟩ := roundInt_exact (allNegativeZero h w && fSign (Config.freeFir h w)) hr hsum
  refine ⟨hnum ▸ hfin, hnum ▸ hval, fun hzero ⟨p, hp, hnot⟩ => ?_⟩
  have hsign : allNegativeZero h w = false := by
    rw [Bool.eq_false_iff, ne_eq, allNegativeZero_iff]
    exact fun hall => hnot (hall p hp)
  rw [hnum, hsign, show List.zipWith _ h w = products from rfl, hzero, Bool.false_and, roundInt_zero]
  rfl

/-! ### Integers -/

/-- A magnitude of at most 24 bits above 2^298 units is not rounded. -/
theorem fMag_roundMag_integer (sign : Bool) {m : Nat} (hm : m < 2 ^ 24) :
    m * 2 ^ 298 < (2 ^ 25 - 1) * 2 ^ 401 ∧ fMag (roundMag sign (m * 2 ^ 298)) = m * 2 ^ 149 := by
  have hlt : m * 2 ^ 298 < 2 ^ 322 :=
    (Nat.mul_lt_mul_of_pos_right hm (Nat.two_pow_pos _)).trans_eq (Nat.pow_add 2 24 298).symm
  have hshift : roundingShift (m * 2 ^ 298) ≤ 298 := by
    rcases roundingShift_normal (m * 2 ^ 298) with h | h
    · omega
    · have := (Nat.pow_lt_pow_iff_right (by decide)).1 (h.trans_lt hlt)
      omega
  have hbound : m * 2 ^ 298 < (2 ^ 25 - 1) * 2 ^ 401 :=
    calc m * 2 ^ 298 < 2 ^ 322 := hlt
      _ ≤ 2 ^ 401 := Nat.pow_le_pow_right (by decide) (by omega)
      _ ≤ (2 ^ 25 - 1) * 2 ^ 401 := by omega
  have hsplit : m * 2 ^ 298 = m * 2 ^ 149 * 2 ^ 149 := by rw [Nat.mul_assoc, ← Nat.pow_add]
  have hexact : fMag (roundMag sign (m * 2 ^ 298)) * 2 ^ 149 = m * 2 ^ 149 * 2 ^ 149 :=
    (fMag_roundMag sign hbound).trans ((roundShift_of_dvd ((pow_dvd_pow 2 hshift).mul_left m)).trans hsplit)
  exact ⟨hbound, Nat.eq_of_mul_eq_mul_right (Nat.two_pow_pos 149) hexact⟩

theorem isInteger_fOfInt (zeroSign : Bool) {v : Int} (hv : v.natAbs < 2 ^ 24) : IsInteger (fOfInt zeroSign v) v := by
  rcases eq_or_ne v 0 with rfl | h0
  · exact ⟨fIsFinite_fZero zeroSign, fUnits_fZero zeroSign⟩
  · have hpow : (0 : Int) < 2 ^ 298 := pow_pos two_pos 298
    have hsign : v * 2 ^ 298 < 0 ↔ v < 0 := by rw [← not_le, ← not_le, mul_nonneg_iff_of_pos_right hpow]
    have habs : (v * 2 ^ 298).natAbs = v.natAbs * 2 ^ 298 := by rw [Int.natAbs_mul, Int.natAbs_pow]; rfl
    have hround : fOfInt zeroSign v = roundMag (decide (v < 0)) (v.natAbs * 2 ^ 298) := by
      rw [fOfInt, roundInt, if_neg (mul_ne_zero h0 hpow.ne'), habs]
      simp only [hsign]
    obtain ⟨hbound, hmag⟩ := fMag_roundMag_integer (decide (v < 0)) hv
    rw [IsInteger, hround]
    refine ⟨fIsFinite_roundMag _ hbound, ?_⟩
    rw [fUnits, fSign_roundMag, hmag]
    simp only [decide_eq_true_eq]
    push_cast
    split
    next hneg => rw [abs_of_neg hneg, neg_mul, neg_neg]
    next hpos => rw [abs_of_nonneg (not_lt.1 hpos)]

/-- An integer other than 0 has one pattern. -/
theorem fOfInt_of_isInteger (zeroSign : Bool) {a : F32} {k : Int} (h : IsInteger a k) (h0 : k ≠ 0) : fOfInt zeroSign k = a := by
  obtain ⟨hfin, hval⟩ := h
  have hscale : fUnits a * 2 ^ 149 = k * 2 ^ 298 := by rw [hval, mul_assoc, ← pow_add]
  have hexact := (roundInt_exact zeroSign hfin hscale).2
  refine eq_of_fUnits_eq ?_ ?_
  · exact mul_right_cancel₀ (by positivity) (hexact.trans hscale.symm)
  · rw [hval]; exact mul_ne_zero h0 (by positivity)

/-! ### NUM.dft -/

/-- The lanes of R23's exact DFT hold the integers they are said to hold. -/
theorem lanes_of_small {as : List F32} {ks : List Int}
    (h : as.Forall₂ (fun a k => IsInteger a k ∧ k.natAbs ≤ 2 ^ 20) ks) :
    as.map laneInt = ks ∧ ∀ a ∈ as, smallInteger a = true := by
  induction h with
  | nil => simp
  | @cons a k as ks hak _ ih =>
    obtain ⟨⟨hfin, hval⟩, hk⟩ := hak
    have hmag : fMag a = k.natAbs * 2 ^ 149 := by rw [← natAbs_fUnits, hval, Int.natAbs_mul, Int.natAbs_pow]; rfl
    have hle : k.natAbs * 2 ^ 149 ≤ 2 ^ 169 := (Nat.mul_le_mul_right _ hk).trans_eq (Nat.pow_add 2 20 149).symm
    have hsmall : smallInteger a = true := by
      rw [smallInteger, hfin, hmag, Nat.mul_mod_left, decide_eq_true hle]
      rfl
    have hlane : laneInt a = k := by
      rw [laneInt, hval]
      exact Int.mul_ediv_cancel k (by positivity)
    exact ⟨by rw [List.map_cons, hlane, ih.1], List.forall_mem_cons.2 ⟨hsmall, ih.2⟩⟩

theorem natAbs_laneInt_le {a : F32} (h : smallInteger a = true) : (laneInt a).natAbs ≤ 2 ^ 20 := by
  have hle : (fUnits a).natAbs ≤ 2 ^ 169 := by
    simp only [smallInteger, Bool.and_eq_true, decide_eq_true_eq] at h
    simpa using h.2
  unfold laneInt
  omega

theorem natAbs_rotate_le {z : Int × Int} {b : Nat} (j : Nat) (h1 : z.1.natAbs ≤ b) (h2 : z.2.natAbs ≤ b) :
    (rotate j z).1.natAbs ≤ b ∧ (rotate j z).2.natAbs ≤ b := by
  unfold rotate
  split <;> simp [h1, h2]

theorem natAbs_sum_le {l : List Int} {b : Nat} (h : ∀ v ∈ l, v.natAbs ≤ b) : l.sum.natAbs ≤ l.length * b := by
  induction l with
  | nil => simp
  | cons v l ih =>
    have ⟨hv, hl⟩ := List.forall_mem_cons.1 h
    rw [List.sum_cons, List.length_cons, Nat.add_one_mul]
    have := ih hl
    omega

theorem dftExact_iff (x : List C32) : dftExact x = true ↔
    (x.length = 2 ∨ x.length = 4) ∧ ∀ z ∈ x, smallInteger z.re = true ∧ smallInteger z.im = true := by
  simp [dftExact]

/-- The bins of an exact transform stay below 2^24. -/
theorem natAbs_exactBin_lt {x : List C32} (h : dftExact x = true) (k : Nat) :
    (exactBin x k).1.natAbs < 2 ^ 24 ∧ (exactBin x k).2.natAbs < 2 ^ 24 := by
  obtain ⟨hlen, hsmall⟩ := (dftExact_iff x).1 h
  have hterm : ∀ t (ht : t < x.length), _ := fun t ht =>
    have hz := hsmall x[t] (List.getElem_mem ht)
    natAbs_rotate_le (4 / x.length * k * t) (z := (laneInt x[t].re, laneInt x[t].im)) (natAbs_laneInt_le hz.1)
      (natAbs_laneInt_le hz.2)
  have hlane (f : Int × Int → Int)
      (hf : ∀ t (ht : t < x.length),
        (f (rotate (4 / x.length * k * t) (laneInt x[t].re, laneInt x[t].im))).natAbs ≤ 2 ^ 20) :
      ((x.mapIdx fun t z => rotate (4 / x.length * k * t) (laneInt z.re, laneInt z.im)).map f).sum.natAbs < 2 ^ 24 := by
    refine (natAbs_sum_le (b := 2 ^ 20) fun v hv => ?_).trans_lt ?_
    · obtain ⟨p, hp, rfl⟩ := List.mem_map.1 hv
      obtain ⟨t, ht, rfl⟩ := List.mem_mapIdx.1 hp
      exact hf t ht
    · rw [List.length_map, List.length_mapIdx]
      omega
  exact ⟨hlane _ fun t ht => (hterm t ht).1, hlane _ fun t ht => (hterm t ht).2⟩

/-- An exact transform returns its bins, lane by lane. -/
theorem numDft_isInteger {x : List C32} (h : dftExact x = true) :
    ((numDft x).map C32.re).Forall₂ IsInteger (((List.range x.length).map (exactBin x)).map Prod.fst) ∧
    ((numDft x).map C32.im).Forall₂ IsInteger (((List.range x.length).map (exactBin x)).map Prod.snd) := by
  have hnum : numDft x = (List.range x.length).map fun k =>
      ⟨fOfInt (fSign (Config.freeDft x k).re) (exactBin x k).1, fOfInt (fSign (Config.freeDft x k).im) (exactBin x k).2⟩ := by
    simp only [numDft, h, if_true]
  simp only [hnum, List.map_map, List.forall₂_map_left_iff, List.forall₂_map_right_iff, List.forall₂_same]
  exact ⟨fun k _ => isInteger_fOfInt _ (natAbs_exactBin_lt h k).1, fun k _ => isInteger_fOfInt _ (natAbs_exactBin_lt h k).2⟩

/-- R266 for two samples. -/
theorem bins_of_two (z0 z1 : C32) :
    (List.range 2).map (exactBin [z0, z1]) =
      [(laneInt z0.re + laneInt z1.re, laneInt z0.im + laneInt z1.im),
       (laneInt z0.re - laneInt z1.re, laneInt z0.im - laneInt z1.im)] := by
  simp [List.range_succ, exactBin, rotate, sub_eq_add_neg]

/-- R266 for four samples. -/
theorem bins_of_four (z0 z1 z2 z3 : C32) :
    (List.range 4).map (exactBin [z0, z1, z2, z3]) =
      [(laneInt z0.re + laneInt z1.re + laneInt z2.re + laneInt z3.re,
        laneInt z0.im + laneInt z1.im + laneInt z2.im + laneInt z3.im),
       (laneInt z0.re + laneInt z1.im - laneInt z2.re - laneInt z3.im,
        laneInt z0.im - laneInt z1.re - laneInt z2.im + laneInt z3.re),
       (laneInt z0.re - laneInt z1.re + laneInt z2.re - laneInt z3.re,
        laneInt z0.im - laneInt z1.im + laneInt z2.im - laneInt z3.im),
       (laneInt z0.re - laneInt z1.im - laneInt z2.re + laneInt z3.im,
        laneInt z0.im + laneInt z1.re - laneInt z2.im - laneInt z3.re)] := by
  simp [List.range_succ, exactBin, rotate, sub_eq_add_neg, add_assoc]

/-- Samples with small integer lanes meet R23's premise, and their lanes hold those integers. -/
theorem dftExact_of_small {x : List C32} {re im : List Int} (hlen : x.length = 2 ∨ x.length = 4)
    (hre : (x.map C32.re).Forall₂ (fun a k => IsInteger a k ∧ k.natAbs ≤ 2 ^ 20) re)
    (him : (x.map C32.im).Forall₂ (fun a k => IsInteger a k ∧ k.natAbs ≤ 2 ^ 20) im) :
    dftExact x = true ∧ (x.map C32.re).map laneInt = re ∧ (x.map C32.im).map laneInt = im := by
  obtain ⟨hr, sr⟩ := lanes_of_small hre
  obtain ⟨hi, si⟩ := lanes_of_small him
  exact ⟨(dftExact_iff x).2 ⟨hlen, fun z hz => ⟨sr _ (List.mem_map_of_mem hz), si _ (List.mem_map_of_mem hz)⟩⟩, hr, hi⟩

/-- Settles O48: small lanes hold integers, whose transform R266 is a small integer again, which rounds to itself. -/
theorem smallTransformsAreExact : Obligations.SmallTransformsAreExact := by
  refine ⟨fun x a b c d hre him => ?_, fun x a b c d a' b' c' d' hre him => ?_⟩
  · have hlen : x.length = 2 := by simpa using hre.length_eq
    obtain ⟨hexact, hr, hi⟩ := dftExact_of_small (.inl hlen) hre him
    obtain ⟨z0, z1, rfl⟩ := List.length_eq_two.1 hlen
    simp only [List.map_cons, List.map_nil, List.cons.injEq, and_true] at hr hi
    obtain ⟨rfl, rfl⟩ := hr
    obtain ⟨rfl, rfl⟩ := hi
    have h := numDft_isInteger hexact
    rwa [hlen, bins_of_two] at h
  · have hlen : x.length = 4 := by simpa using hre.length_eq
    obtain ⟨hexact, hr, hi⟩ := dftExact_of_small (.inr hlen) hre him
    match x, hlen with
    | [z0, z1, z2, z3], hlen =>
      simp only [List.map_cons, List.map_nil, List.cons.injEq, and_true] at hr hi
      obtain ⟨rfl, rfl, rfl, rfl⟩ := hr
      obtain ⟨rfl, rfl, rfl, rfl⟩ := hi
      have h := numDft_isInteger hexact
      rwa [hlen, bins_of_four] at h

/-! ### NUM.db and NUM.phase -/

theorem numDb_of_nan_or_neg {p : F32} (h : fIsNan p = true ∨ (fSign p = true ∧ fIsZero p = false)) :
    fIsNan (numDb p) = true := by
  have hz : fIsZero p = false := by
    rcases h with h | h
    · simp only [fIsNan, Bool.and_eq_true, beq_iff_eq] at h
      simp [fIsZero, h.1]
    · exact h.2
  have hbad : (fIsNan p || fSign p) = true := by
    rcases h with h | h <;> simp [h]
  simp [numDb, hz, hbad]

theorem numDb_powerOfTen : ∀ k : Nat, k < 11 → numDb (fOfInt false (10 ^ k)) = fOfInt false (10 * k) := by decide +kernel

theorem isInteger_tens {k : Nat} (hk : k ≤ 10) : IsInteger (fOfInt false (10 * k)) (10 * k) :=
  isInteger_fOfInt false (by omega)

theorem numPhase_of_nan {x y : C32}
    (h : fIsNan x.re = true ∨ fIsNan x.im = true ∨ fIsNan y.re = true ∨ fIsNan y.im = true) :
    fIsNan (numPhase x y) = true := by
  have hany : (fIsNan x.re || fIsNan x.im || fIsNan y.re || fIsNan y.im) = true := by
    simpa only [Bool.or_eq_true, or_assoc] using h
  simp [numPhase, hany]

theorem numPhase_of_finite {x y : C32} (hxr : fIsFinite x.re = true) (hxi : fIsFinite x.im = true)
    (hyr : fIsFinite y.re = true) (hyi : fIsFinite y.im = true) :
    numPhase x y =
      if (conjProduct x y).2 = 0 then (if (conjProduct x y).1 < 0 then 0x40490FDB else 0x00000000)
      else if (conjProduct x y).1 = 0 then (if (conjProduct x y).2 < 0 then 0xBFC90FDB else 0x3FC90FDB)
      else Config.freePhase x y := by
  simp [numPhase, fIsNan_of_finite, fIsInf_of_finite, hxr, hxi, hyr, hyi]

/-! ### NUM.offset -/

theorem ratioPowerOfTen_pow : ∀ k < 11, ratioPowerOfTen ⟨10 ^ k, 1⟩ = some k := by decide

theorem ratioPowerOfTen_le {r : Ratio} {k : Nat} (h : ratioPowerOfTen r = some k) : k ≤ 10 :=
  Nat.lt_succ_iff.1 (List.mem_range.1 (List.mem_of_find?_eq_some h))

theorem add32_not_finite_of_inf {a b : F32} (ha : fIsInf a = true) :
    fIsFinite (add32 a b) = false ∧ fIsFinite (add32 b a) = false := by
  cases hb : fIsNan b with
  | true => exact ⟨fIsFinite_of_fIsNan (add32_of_nan (.inr hb)), fIsFinite_of_fIsNan (add32_of_nan (.inl hb))⟩
  | false =>
    by_cases hopp : fIsInf b = true ∧ fSign a ≠ fSign b
    · obtain ⟨hab, hba⟩ := add32_opposite_inf ha hopp.1 hopp.2
      exact ⟨fIsFinite_of_fIsNan hab, fIsFinite_of_fIsNan hba⟩
    · obtain ⟨hab, hba⟩ := add32_inf ha hb (by simpa using hopp)
      rw [hab, hba]
      exact ⟨fIsFinite_of_inf ha, fIsFinite_of_inf ha⟩

/-- The exact offset of R23 keeps an infinite G or u from becoming finite. -/
theorem add32_sub32_of_inf {g d u : F32} (hd : fIsFinite d = true) (h : fIsInf g = true ∨ fIsInf u = true) :
    fIsFinite (add32 (sub32 g d) u) = false := by
  rcases h with hg | hu
  · have hsub : sub32 g d = g := (sub32_inf hg (fIsNan_of_finite hd) (by simp [fIsInf_of_finite hd])).1
    rw [hsub]
    exact (add32_not_finite_of_inf hg).1
  · exact (add32_not_finite_of_inf hu).2

theorem offsetWith_powerOfTen (keeps : Bool) (g u : F32) {r : Ratio} {k : Nat} (h : ratioPowerOfTen r = some k) :
    offsetWith keeps g r u = add32 (sub32 g (fOfInt false (10 * k))) u := by
  simp only [offsetWith, h]

theorem offsetWith_of_nan (keeps : Bool) {g u : F32} (r : Ratio) (h : fIsNan g = true ∨ fIsNan u = true) :
    fIsNan (offsetWith keeps g r u) = true := by
  cases hr : ratioPowerOfTen r with
  | some k =>
    rw [offsetWith_powerOfTen keeps g u hr]
    exact add32_of_nan (h.imp_left fun hg => sub32_of_nan (.inl hg))
  | none => simp only [offsetWith, hr, Bool.or_eq_true, h, if_true, fIsNan_fNanOf]

/-- R336: an infinite G or u gives no finite offset where NUM keeps infinities, and where R23 fixes the offset. -/
theorem offsetWith_of_inf {keeps : Bool} {g u : F32} {r : Ratio} (hk : keeps = true ∨ ratioPowerOfTen r ≠ none)
    (h : fIsInf g = true ∨ fIsInf u = true) : fIsFinite (offsetWith keeps g r u) = false := by
  cases hr : ratioPowerOfTen r with
  | some k =>
    rw [offsetWith_powerOfTen keeps g u hr]
    exact add32_sub32_of_inf (isInteger_tens (ratioPowerOfTen_le hr)).1 h
  | none =>
    obtain rfl : keeps = true := hk.resolve_right (not_not_intro hr)
    by_cases hnan : fIsNan g = true ∨ fIsNan u = true
    · exact fIsFinite_of_fIsNan (offsetWith_of_nan true r hnan)
    · simp [offsetWith, hr, hnan, h]

/-- Settles O49: each special value is its own branch of the function that R23 fixes it for. -/
theorem numericSpecialValues : Obligations.NumericSpecialValues := by
  refine ⟨⟨rfl, rfl, rfl, fun p => numDb_of_nan_or_neg, fun p k hk hp => ?_⟩,
    fun x y => ⟨numPhase_of_nan, fun hxr hxi hyr hyi => ?_⟩,
    fun g u k hk => ⟨?_, isInteger_tens hk⟩,
    fun g u r => ⟨offsetWith_of_nan _ r, fun h => ⟨offsetWith_of_inf (.inl rfl) h, offsetWith_of_inf (.inr (by decide)) h⟩, rfl⟩,
    fun _ _ => rfl⟩
  · rw [← fOfInt_of_isInteger false hp (by positivity), numDb_powerOfTen k (by omega)]
    exact isInteger_tens hk
  · intro re im
    have hnum := numPhase_of_finite hxr hxi hyr hyi
    simp only [show conjProduct x y = (re, im) from rfl] at hnum
    rw [hnum]
    refine ⟨fun h0 h => ?_, fun h0 h => ?_, fun h0 h => ?_, fun h0 h => ?_⟩
    · rw [if_pos h0, if_neg h.not_gt]
    · rw [if_pos h0, if_pos h]
    · rw [if_neg h.ne', if_pos h0, if_neg h.not_gt]
    · rw [if_neg h.ne, if_pos h0, if_pos h]
  · exact offsetWith_powerOfTen _ g u (ratioPowerOfTen_pow k (by omega))

end Sys2Proof.Machine
end

section
/-! PROOFS. Whose turn a step is, and what each turn runs. Settles O8. -/

namespace Sys2Proof.Machine

theorem step_of_sched {s : State} {e : Event} {rest : List Event} (h : s.sched = e :: rest) :
    step s = runEvent e { s with sched := rest } := by
  simp only [step, runNext, h]
  rfl

theorem step_of_internalTurn {s : State} {e : Event} (hs : s.sched = []) (h : internalTurn s = some e) :
    step s = runEvent e s := by
  simp only [step, runNext, hs, h]

theorem step_of_idle {s : State} (hs : s.sched = []) (h : internalTurn s = none) : step s = .next s := by
  simp only [step, runNext, hs, h]

theorem runCommand_of_ok {port : ExtPort} {w : Word} {payload : List Word} {s : State} {i : Instr}
    (h : decode (portOfExt port) w payload = .ok i) : runCommand port w payload s = exec i s := by
  simp only [runCommand, h]

theorem runCommand_of_error {port : ExtPort} {w : Word} {payload : List Word} {s : State} {r : Reject}
    (h : decode (portOfExt port) w payload = .error r) :
    runCommand port w payload s = illegal (portOfExt port) s := by
  simp only [runCommand, h]

theorem runWorker_of_none {s : State} (ha : s.seq.wstate = .active) (hf : s.rom[s.seq.upc]? = none) :
    runWorker s = .fault (.romAddress s.seq.upc) := by
  simp only [runWorker, ha, if_true, fetch, hf]

theorem runWorker_of_ok {s : State} {w : Word} {i : Instr} (ha : s.seq.wstate = .active)
    (hf : s.rom[s.seq.upc]? = some w) (hd : decode .w w [] = .ok i) : runWorker s = exec i s := by
  simp only [runWorker, ha, if_true, fetch, hf, hd]

theorem runWorker_of_error {s : State} {w : Word} {r : Reject} (ha : s.seq.wstate = .active)
    (hf : s.rom[s.seq.upc]? = some w) (hd : decode .w w [] = .error r) : runWorker s = illegal .w s := by
  simp only [runWorker, ha, if_true, fetch, hf, hd]

theorem runWorker_of_not_active {s : State} (h : s.seq.wstate ≠ .active) : runWorker s = .next s := by
  simp only [runWorker, h, if_false]

/-- The control unit is the first to take an unscheduled turn (46_control R346). -/
theorem internalTurn_of_stopEnabled {s : State} (h : stopEnabled s = true) : internalTurn s = some .control := by
  simp only [internalTurn, h, if_true]

/-- The worker takes an unscheduled turn only while it is ACTIVE. -/
theorem active_of_internalTurn {s : State} (h : internalTurn s = some .worker) : s.seq.wstate = .active := by
  by_contra hna
  have hw : workerEnabled s = false := by simp [workerEnabled, hna]
  simp only [internalTurn, hw, Bool.false_eq_true, if_false] at h
  split_ifs at h <;> cases h

/-- Settles O8: a step is one turn of `step_of_sched`, `step_of_internalTurn` or `step_of_idle`, and each turn is its agent's. -/
theorem stepRunsTheDecodedCommand : Obligations.StepRunsTheDecodedCommand := by
  refine ⟨?_, ?_, ?_, ?_, ?_, ?_, ?_, ?_, ?_, ?_, ?_, ?_, ?_⟩
  · intro s port w payload rest i hs hd
    exact (step_of_sched hs).trans (runCommand_of_ok hd)
  · intro s w rest i hs ha hf hd
    exact (step_of_sched hs).trans (runWorker_of_ok ha hf hd)
  · intro s w i hs ht hf hd
    exact (step_of_internalTurn hs ht).trans (runWorker_of_ok (active_of_internalTurn ht) hf hd)
  · intro s rest hs ha
    exact (step_of_sched hs).trans (runWorker_of_not_active ha)
  · intro s port w payload rest r hs hd
    exact ⟨step_of_sched hs, (step_of_sched hs).trans (runCommand_of_error hd)⟩
  · intro s w rest r hs ha hf hd
    exact (step_of_sched hs).trans (runWorker_of_error ha hf hd)
  · intro s rest hs ha hf
    exact (step_of_sched hs).trans (runWorker_of_none ha hf)
  · intro s rest hs
    exact step_of_sched hs
  · intro s q cv pv rest hs
    exact step_of_sched hs
  · intro s e rest hs
    exact step_of_sched hs
  · intro s hs hses hw
    exact step_of_internalTurn hs (internalTurn_of_stopEnabled ((stopEnabled_iff s).2 ⟨hses, hw⟩))
  · intro s q cv pv hs ht
    exact step_of_internalTurn hs ht
  · intro s hs ht
    exact step_of_idle hs ht

end Sys2Proof.Machine
end

section
/-! PROOFS. What holds in every state an answer leads to, one rule per end of a command; what the external ports' commands
are. -/

namespace Sys2Proof.Machine

/-- `P` holds of the next state, where the answer is one. -/
def Ensures (r : Result) (P : State → Prop) : Prop := ∀ t, r = .next t → P t

section Ends

variable {s : State} {P : State → Prop}

@[simp] theorem ensures_next : Ensures (.next s) P ↔ P s := by simp [Ensures]

@[simp] theorem ensures_raise (port : Port) (st : Status) :
    Ensures (raise port st s) P ↔ P (s.respond port st 0 []) := ensures_next

@[simp] theorem ensures_illegal (port : Port) :
    Ensures (illegal port s) P ↔ P ((s.setSticky .illegal).respond port .illegal 0 []) := ensures_next

@[simp] theorem ensures_addrError (port : Port) :
    Ensures (addrError port s) P ↔ P ((s.setSticky .addr).respond port .addrError 0 []) := ensures_next

@[simp] theorem ensures_workerDone (st : Status) (n : Nat) :
    Ensures (workerDone st n s) P ↔ P (s.advance.respond .w st n []) := ensures_next

@[simp] theorem ensures_abandonCycle (cause : BitVec 4) :
    Ensures (abandonCycle cause s) P ↔ P (((s.setConfigError cause).setUpc 0).respond .w .configError 0 []) := ensures_next

@[simp] theorem ensures_useAfterTeardown : Ensures (useAfterTeardown s) P := by simp [Ensures, useAfterTeardown]

@[simp] theorem ensures_ite (c : Prop) [Decidable c] (a b : Result) :
    Ensures (if c then a else b) P ↔ (c → Ensures a P) ∧ (¬c → Ensures b P) := by
  split <;> simp_all

theorem ensures_withLen {len : Len} {run : Nat → Result} (hrefused : Ensures (illegal .w s) P)
    (hrun : ∀ n, Ensures (run n) P) : Ensures (withLen len s run) P := by
  rcases withLen_cases s len run with ⟨-, h⟩ | ⟨-, h⟩ <;> rw [h]
  · exact hrefused
  · exact hrun _

end Ends

theorem Ensures.mono {r : Result} {P Q : State → Prop} (h : Ensures r P) (hPQ : ∀ t, P t → Q t) : Ensures r Q :=
  fun t ht => hPQ t (h t ht)

/-! ### A decoded command is one of its port's -/

theorem eq_of_withoutPayload {payload : List Word} {i j : Instr} (h : withoutPayload payload i = .ok j) : i = j := by
  unfold withoutPayload at h
  split at h <;> simp_all

theorem eq_of_decodeBare {w : Word} {payload : List Word} {i j : Instr} (h : decodeBare w payload i = .ok j) : i = j := by
  unfold decodeBare at h
  split at h
  · cases h
  · exact eq_of_withoutPayload h

theorem unaccepted_ne_ok (op : Nat) (i : Instr) : unaccepted op ≠ .ok i := by
  unfold unaccepted
  split <;> simp

theorem exists_of_decodeQueueSelect {w : Word} {payload : List Word} {mk : QueueSel → Instr} {i : Instr}
    (h : decodeQueueSelect w payload mk = .ok i) : ∃ q, i = mk q := by
  unfold decodeQueueSelect at h
  split at h
  · cases h
  · exact ⟨_, (eq_of_withoutPayload h).symm⟩

theorem exists_of_decodeQwriteIq {w : Word} {payload : List Word} {i : Instr} (h : decodeQwriteIq w payload = .ok i) :
    ∃ block, i = .qwriteIq block := by
  unfold decodeQwriteIq at h
  split at h
  · cases h
  · split at h
    · cases h
    · split at h <;> cases h
      exact ⟨_, rfl⟩

theorem decodeP_cases {w : Word} {payload : List Word} {i : Instr} (h : decode .p w payload = .ok i) :
    (∃ block, i = .qwriteIq block) ∨ i = .devFault := by
  simp only [decode, decodeP] at h
  split at h
  · exact .inl (exists_of_decodeQwriteIq h)
  · exact .inr (eq_of_decodeBare h).symm
  · exact absurd h (unaccepted_ne_ok _ _)

theorem decodeA_cases {w : Word} {payload : List Word} {i : Instr} (h : decode .a w payload = .ok i) :
    ∃ frames, i = .audPull frames := by
  simp only [decode, decodeA] at h
  split at h
  · unfold decodeAudPull at h
    split at h
    · cases h
    · exact ⟨_, (eq_of_withoutPayload h).symm⟩
  · exact absurd h (unaccepted_ne_ok _ _)

theorem decodeS_cases {w : Word} {payload : List Word} {i : Instr} (h : decode .s w payload = .ok i) :
    ∃ sel count, i = .snapRead sel count := by
  simp only [decode, decodeS] at h
  split at h
  · unfold decodeSnapRead at h
    split at h
    · cases h
    · exact ⟨_, _, (eq_of_withoutPayload h).symm⟩
  · exact absurd h (unaccepted_ne_ok _ _)

theorem exists_of_decodeCsrRead {w : Word} {payload : List Word} {i : Instr} (h : decodeCsrRead w payload = .ok i) :
    ∃ addr, i = .csrRead addr := by
  unfold decodeCsrRead at h
  split at h
  · cases h
  · exact ⟨_, (eq_of_withoutPayload h).symm⟩

theorem exists_of_decodeCsrWrite {w : Word} {payload : List Word} {i : Instr} (h : decodeCsrWrite w payload = .ok i) :
    ∃ addr v, i = .csrWrite addr v := by
  unfold decodeCsrWrite at h
  split at h
  · cases h
  · split at h <;> cases h
    exact ⟨_, _, rfl⟩

theorem decodeH_cases {w : Word} {payload : List Word} {i : Instr} (h : decode .h w payload = .ok i) :
    (∃ q, i = .qavail q) ∨ (∃ q, i = .qopen q) ∨ (∃ q, i = .qclose q) ∨ i = .acqStart ∨ i = .acqStop ∨
    (∃ addr, i = .csrRead addr) ∨ ∃ addr v, i = .csrWrite addr v := by
  simp only [decode, decodeH] at h
  split at h
  · exact .inl (exists_of_decodeQueueSelect h)
  · exact .inr (.inl (exists_of_decodeQueueSelect h))
  · exact .inr (.inr (.inl (exists_of_decodeQueueSelect h)))
  · exact .inr (.inr (.inr (.inl (eq_of_decodeBare h).symm)))
  · exact .inr (.inr (.inr (.inr (.inl (eq_of_decodeBare h).symm))))
  · exact .inr (.inr (.inr (.inr (.inr (.inl (exists_of_decodeCsrRead h))))))
  · exact .inr (.inr (.inr (.inr (.inr (.inr (exists_of_decodeCsrWrite h))))))
  · exact absurd h (unaccepted_ne_ok _ _)

/-! ### The worker's command -/

/-- The commands of the microprogram, address 0 first (41_worker R229). -/
def microcommands : List Instr :=
  [.seqTop, .seqWait, .qread .wb .n, .seqJshort 0, .seqLatch, .bufCopy (.complex .wb) (.complex .db) .n, .winApply .wb .n,
   .fftFwd .wb .n, .specPower .wb .wide .n, .decimate0 .db .nb .n, .fmDemod .nb .m, .lpf .m, .decimate1 .m, .qwriteOq .k,
   .fftFwd .nb .m, .specPower .nb .narrow .m, .seqEnd]

theorem decode_microprogram : microprogram.map (decode .w · []) = microcommands.map .ok := by decide

/-- The ACTIVE worker runs the command at upc. -/
theorem runWorker_of_microprogram {s : State} {i : Instr} (hrom : s.rom = microprogram) (ha : s.seq.wstate = .active)
    (hi : microcommands[s.seq.upc]? = some i) : runWorker s = exec i s := by
  have h := congrArg (·[s.seq.upc]?) decode_microprogram
  simp only [List.getElem?_map, hi, Option.map_some, Option.map_eq_some_iff] at h
  obtain ⟨w, hw, hd⟩ := h
  exact runWorker_of_ok ha (hrom ▸ hw) hd

end Sys2Proof.Machine
end

section
/-! PROOFS. What each update of the state needs to keep the invariant: the storages, the queues, the filters, the ROM's
progress. -/

namespace Sys2Proof.Machine

/-! ### The storages -/

section Storage

variable {α : Type}

theorem fits_nil (b : Nat) : Memory.wf ([] : Memory α) ∧ ∀ c ∈ ([] : Memory α), c.1 < b := ⟨Memory.wf_nil, by simp⟩

theorem fits_writeBlock {m : Memory α} {b : Nat} (h : Memory.wf m ∧ ∀ c ∈ m, c.1 < b) {vs : List α}
    (hvs : vs.length ≤ b) :
    Memory.wf (m.writeBlock 0 vs) ∧ ∀ c ∈ m.writeBlock 0 vs, c.1 < b :=
  ⟨Memory.wf_writeBlock h.1 0 vs, Memory.below_writeBlock h.2 (by omega)⟩

theorem written_nil (m : Memory α) : written m 0 := fun i hi => absurd hi (Nat.not_lt_zero i)

theorem written_of_length {vs : List α} {n : Nat} (h : n ≤ vs.length) (m : Memory α) : written (m.writeBlock 0 vs) n :=
  written_writeBlock h

theorem written.writeBlock {m : Memory α} {n : Nat} (h : written m n) (vs : List α) : written (m.writeBlock 0 vs) n :=
  fun i hi => m.isSome_read_writeBlock 0 i vs (h i hi)

theorem written_cellsFrom {vs : List α} : written (cellsFrom 0 vs) vs.length := fun i hi => by
  have := read_cellsFrom_inside 0 i vs hi
  rw [Nat.zero_add] at this
  simp [this]

end Storage

namespace BuffersInv

variable {s t : State}

theorem congr (h : BuffersInv s) (hbuf : t.buf = s.buf) (hcfg : t.cfg = s.cfg) : BuffersInv t := by
  constructor <;> rw [hbuf] <;> (try rw [hcfg])
  exacts [h.wb, h.db, h.nb, h.au, h.pwWb, h.pwNb, h.win, h.wide, h.narrow, h.wideLen, h.narrowLen, h.winLen, h.winHeld]

theorem writeC (h : BuffersInv s) (b : CBuf) {vs : List C32} (hvs : vs.length ≤ s.cfg.nmax) : BuffersInv (s.writeC b vs) := by
  cases b
  case wb => exact { h with wb := fits_writeBlock h.wb hvs }
  case db => exact { h with db := fits_writeBlock h.db hvs }
  case nb => exact { h with nb := fits_writeBlock h.nb hvs }

theorem writeAu (h : BuffersInv s) {vs : List F32} (hvs : vs.length ≤ s.cfg.nmax) : BuffersInv (s.writeAu vs) :=
  { h with au := fits_writeBlock h.au hvs }

/-- A commit covers exactly its bins (45_ports R321). -/
theorem commitPower (h : BuffersInv s) (p : PowerBuf) {bins : List F32} (hbins : bins.length ≤ s.cfg.nmax) :
    BuffersInv (s.commitPower p bins bins.length) := by
  cases p
  case wide => exact { h with pwWb := fits_writeBlock h.pwWb hbins, wide := written_of_length le_rfl _, wideLen := hbins }
  case narrow => exact { h with pwNb := fits_writeBlock h.pwNb hbins, narrow := written_of_length le_rfl _, narrowLen := hbins }

theorem forgetWork (h : BuffersInv s) : BuffersInv s.forgetWork :=
  { h with wb := fits_nil _, db := fits_nil _, nb := fits_nil _, au := fits_nil _ }

theorem loadWindow (h : BuffersInv s) {n : Nat} (hn : n ≤ s.cfg.nmax) : BuffersInv (s.loadWindow n) := by
  have hlen : (windowFor n).length = n := by simp [windowFor]
  have hlt : ∀ c ∈ cellsFrom 0 (windowFor n), c.1 < n := fun c hc => by have := (mem_cellsFrom hc).2; omega
  exact { h with
    win := ⟨wf_cellsFrom 0 _, fun c hc => (hlt c hc).trans_le hn⟩
    winLen := hn
    winHeld := hlt }

end BuffersInv

/-! ### The queues -/

section Queue

variable {α : Type} {view : QueueView} {cap : Nat} {q : Queue α}

/-- What an operation on a queue outside a running session must not undo: that it is closed (46_control R340), and that it is
destroyed (10_state R46). -/
def StaysClosed (cap : Nat) (q q' : Queue α) : Prop :=
  (q.isOpen = false → q'.isOpen = false) ∧ (q.isDestroyed cap → q'.isDestroyed cap)

theorem StaysClosed.of_eq {q' : Queue α} (hopen : q'.isOpen = q.isOpen) (heq : q.isDestroyed cap → q' = q) :
    StaysClosed cap q q' :=
  ⟨fun h => hopen.trans h, fun h => (heq h).symm ▸ h⟩

theorem Queue.isDestroyed.closed (h : q.isDestroyed cap) : q.isOpen = false := by
  obtain ⟨-, -, -, hopen, -, -⟩ := h
  exact hopen

theorem staysClosed_write (view : QueueView) (data : List α) : StaysClosed cap q (queueWrite view cap q data).queue :=
  .of_eq (queueWrite_isOpen ..) fun h => by rw [queueWrite_closed view cap data h.closed]

theorem staysClosed_read (free : Nat → α) (view : QueueView) (max : Nat) :
    StaysClosed cap q (queueRead free view cap q max).queue :=
  .of_eq (queueRead_isOpen ..) fun h => by rw [queueRead_closed free view cap max h.closed]

/-- No view of an empty queue lags, so Y has no step on a destroyed one. -/
theorem staysClosed_sync (view : QueueView) (cv pv : Nat) : StaysClosed cap q (q.sync view cap cv pv) := by
  refine .of_eq (by unfold Queue.sync; split <;> rfl) fun ⟨havail, _, _, _, hcv, hpv⟩ => ?_
  have : viewsAllowed cap q cv pv = false := by
    simp only [viewsAllowed, havail, hcv, hpv, ← Bool.not_eq_true, Bool.and_eq_true, Bool.or_eq_true, decide_eq_true_eq]
    omega
  simp [Queue.sync, this]

theorem staysClosed_close : StaysClosed cap q { q with isOpen := false } :=
  ⟨fun _ => rfl, fun ⟨havail, hwr, hrd, _, hcv, hpv⟩ => ⟨havail, hwr, hrd, rfl, hcv, hpv⟩⟩

end Queue

/-! ### The session and the filters -/

section Session

variable {s t : State}

/-- What a session is tied to: the parameters, the latched quantities, the registers they were latched from, and the window's
length. -/
structure SameSession (s t : State) : Prop where
  cfg    : t.cfg = s.cfg
  ses    : t.ses = s.ses
  nFft   : t.csr.nFft = s.csr.nFft
  decD   : t.csr.decD = s.csr.decD
  audD2  : t.csr.audD2 = s.csr.audD2
  winLen : t.buf.winLen = s.buf.winLen

theorem SessionInv.congr (h : SessionInv s) (e : SameSession s t) : SessionInv t := by
  obtain ⟨hcfg, hses, hn, hd, hd2, hw⟩ := e
  constructor <;> simp only [hcfg, hses, hn, hd, hd2, hw]
  exacts [h.nEq, h.dEq, h.d2Eq, h.supportN, h.supportM, h.mExact, h.kExact, h.kLow, h.fitsIn, h.fitsOut, h.winLen]

theorem FiltersInv.congr (h : FiltersInv s) (hdsp : t.dsp = s.dsp) (hcfg : t.cfg = s.cfg) : FiltersInv t := by
  constructor <;> rw [hdsp] <;> (try rw [hcfg])
  exacts [h.dec0, h.dec1, h.lpf, h.fm]

theorem supported_iff (nmax n : Nat) :
    supported nmax n = true ↔ isPowerOfTwo n = true ∧ 2 ≤ n ∧ n ≤ nmax := by
  simp [supported, and_assoc]

namespace SessionInv

variable (h : SessionInv s)

include h

theorem sN_le : s.ses.sN ≤ s.cfg.nmax := ((supported_iff _ _).1 h.supportN).2.2

theorem sM_le : s.ses.sM ≤ s.cfg.nmax := ((supported_iff _ _).1 h.supportM).2.2

theorem sM_pos : 0 < s.ses.sM := Nat.lt_of_lt_of_le (by decide) ((supported_iff _ _).1 h.supportM).2.1

theorem sD_pos : 0 < s.ses.sD := by
  refine Nat.pos_of_ne_zero fun h0 => ?_
  have hN := ((supported_iff _ _).1 h.supportN).2.1
  rw [← h.mExact, h0] at hN
  omega

theorem sD2_pos : 0 < s.ses.sD2 := by
  refine Nat.pos_of_ne_zero fun h0 => ?_
  have hM := h.sM_pos
  rw [← h.kExact, h0] at hM
  omega

theorem sK_le : s.ses.sK ≤ s.cfg.nmax :=
  calc s.ses.sK ≤ s.ses.sK * s.ses.sD2 := Nat.le_mul_of_pos_right _ h.sD2_pos
    _ = s.ses.sM := h.kExact
    _ ≤ s.cfg.nmax := h.sM_le

end SessionInv

end Session

/-! ### The ROM's progress -/

/-- A buffer the ROM fills at the step to micro-address `u`: full from there on, without values before (10_state R64). -/
def FilledFrom {α : Type} (u upc : Nat) (m : Memory α) (n : Nat) : Prop :=
  (u ≤ upc → written m n) ∧ (upc < u → m = [])

/-- WB, which QREAD fills as far as samples came (41_worker R229). -/
def BlockRead {α : Type} (upc : Nat) (short : Bool) (m : Memory α) (n : Nat) : Prop :=
  (4 ≤ upc ∨ (upc = 3 ∧ short = false) → written m n) ∧ (upc = 1 ∨ upc = 2 → m = [])

theorem cycleInv_iff (s : State) : CycleInv s ↔
    BlockRead s.seq.upc s.seq.short s.buf.wb s.ses.sN ∧ FilledFrom 6 s.seq.upc s.buf.db s.ses.sN ∧
    FilledFrom 10 s.seq.upc s.buf.nb s.ses.sM ∧ FilledFrom 11 s.seq.upc s.buf.au s.ses.sM ∧
    written s.buf.win s.ses.sN :=
  ⟨fun h => ⟨⟨h.wb, h.freshWb⟩, ⟨h.db, h.freshDb⟩, ⟨h.nb, h.freshNb⟩, ⟨h.au, h.freshAu⟩, h.win⟩,
    fun ⟨hwb, hdb, hnb, hau, hwin⟩ => ⟨hwb.1, hdb.1, hnb.1, hau.1, hwin, hwb.2, hdb.2, hnb.2, hau.2⟩⟩

section Progress

variable {α : Type} {u upc : Nat} {short : Bool} {m : Memory α} {n : Nat}

theorem FilledFrom.next (h : FilledFrom u upc m n) (hu : upc + 1 ≠ u) : FilledFrom u (upc + 1) m n :=
  ⟨fun hle => h.1 (by omega), fun hlt => h.2 (by omega)⟩

theorem filledFrom_of_lt (h : upc < u) : FilledFrom u upc ([] : Memory α) n := ⟨fun hle => by omega, fun _ => rfl⟩

theorem filledFrom_of_written (hu : u ≤ upc) (h : written m n) : FilledFrom u upc m n := ⟨fun _ => h, fun hlt => by omega⟩

theorem FilledFrom.writeBlock (h : FilledFrom u upc m n) (hu : u ≤ upc) (vs : List α) :
    FilledFrom u upc (m.writeBlock 0 vs) n :=
  filledFrom_of_written hu ((h.1 hu).writeBlock vs)

theorem BlockRead.next (h : BlockRead upc short m n) (h0 : upc ≠ 0) (h2 : upc ≠ 2) (h3 : upc = 3 → short = false)
    (short' : Bool) : BlockRead (upc + 1) short' m n :=
  ⟨fun hu => h.1 ((show 4 ≤ upc ∨ upc = 3 by omega).imp_right fun h' => ⟨h', h3 h'⟩), fun hu => h.2 (by omega)⟩

theorem blockRead_nil (h : upc ≤ 2) : BlockRead upc short ([] : Memory α) n := ⟨fun hu => by omega, fun _ => rfl⟩

theorem BlockRead.writeBlock (h : BlockRead upc short m n) (hu : 4 ≤ upc) (vs : List α) :
    BlockRead upc short (m.writeBlock 0 vs) n :=
  ⟨fun _ => (h.1 (.inl hu)).writeBlock vs, fun h12 => by omega⟩

end Progress

end Sys2Proof.Machine
end

section
/-! PROOFS. The invariant of the block by the session's state, and each update of the state that keeps it. -/

namespace Sys2Proof.Machine

variable {s t : State}

/-! ### The three states of the session -/

/-- The stopped session of LifecycleInv (10_state R46, R75). -/
structure Stopped (s : State) : Prop where
  sess    : s.ses.sess = .stopped
  wstate  : s.seq.wstate = .off
  stopReq : s.ses.stopReq = false
  upc     : s.seq.upc = 0
  short   : s.seq.short = false
  iq      : s.iq.isDestroyed s.cfg.capIn
  oq      : s.oq.isDestroyed s.cfg.capOut
  dsp     : s.dsp = ⟨none, none, none, none⟩
  noWork  : s.buf.noWork

/-- What a started session holds to until its stop completes. -/
structure Started (s : State) : Prop where
  session : SessionInv s
  filters : FiltersInv s
  cycle   : CycleInv s

/-- The running session of LifecycleInv (10_state R76, R81). -/
structure Running (s : State) : Prop extends Started s where
  sess    : s.ses.sess = .running
  active  : s.seq.wstate = .active
  stopReq : s.ses.stopReq = false

/-- The stopping session of LifecycleInv (46_control R340, R365). -/
structure Stopping (s : State) : Prop extends Started s where
  sess     : s.ses.sess = .stopping
  worker   : s.seq.wstate = .active ∨ (s.seq.wstate = .exited ∧ s.seq.upc = 0 ∧ s.buf.noWork)
  stopReq  : s.ses.stopReq = true
  iqClosed : s.iq.isOpen = false
  oqClosed : s.oq.isOpen = false

theorem lifecycleInv_iff (s : State) : LifecycleInv s ↔ Stopped s ∨ Running s ∨ Stopping s := by
  unfold LifecycleInv
  constructor
  · intro h
    split at h
    case h_1 hs =>
      obtain ⟨hw, hr, hu, hsh, hiq, hoq, hd, hn⟩ := h
      exact .inl ⟨hs, hw, hr, hu, hsh, hiq, hoq, hd, hn⟩
    case h_2 hs =>
      obtain ⟨hw, hr, hses, hf, hc⟩ := h
      exact .inr (.inl ⟨⟨hses, hf, hc⟩, hs, hw, hr⟩)
    case h_3 hs =>
      obtain ⟨hw, hr, hi, ho, hses, hf, hc⟩ := h
      exact .inr (.inr ⟨⟨hses, hf, hc⟩, hs, hw, hr, hi, ho⟩)
  · rintro (⟨hs, hw, hr, hu, hsh, hiq, hoq, hd, hn⟩ | ⟨⟨hses, hf, hc⟩, hs, hw, hr⟩ | ⟨⟨hses, hf, hc⟩, hs, hw, hr, hi, ho⟩) <;>
      rw [hs]
    · exact ⟨hw, hr, hu, hsh, hiq, hoq, hd, hn⟩
    · exact ⟨hw, hr, hses, hf, hc⟩
    · exact ⟨hw, hr, hi, ho, hses, hf, hc⟩

theorem Inv.cases (h : Inv s) : Stopped s ∨ Running s ∨ Stopping s := (lifecycleInv_iff s).1 h.lifecycle

theorem Inv.stopped (h : Inv s) (hs : s.ses.sess = .stopped) : Stopped s := by
  rcases h.cases with hl | hl | hl
  · exact hl
  · exact absurd (hs.symm.trans hl.sess) (by decide)
  · exact absurd (hs.symm.trans hl.sess) (by decide)

theorem Inv.running (h : Inv s) (hs : s.ses.sess = .running) : Running s := by
  rcases h.cases with hl | hl | hl
  · exact absurd (hs.symm.trans hl.sess) (by decide)
  · exact hl
  · exact absurd (hs.symm.trans hl.sess) (by decide)

theorem Inv.started (h : Inv s) (ha : s.seq.wstate = .active) : Started s := by
  rcases h.cases with hl | hl | hl
  · exact absurd (ha.symm.trans hl.wstate) (by decide)
  · exact hl.toStarted
  · exact hl.toStarted

/-- The worker has left micro-address 0 only while it is ACTIVE. -/
theorem Inv.active (h : Inv s) (hu : s.seq.upc ≠ 0) : s.seq.wstate = .active := by
  rcases h.cases with hl | hl | hl
  · exact absurd hl.upc hu
  · exact hl.active
  · exact hl.worker.resolve_right fun hw => hu hw.2.1

/-! ### Updates beside the worker -/

/-- Outside a stopped session only N_FFT, DEC_D and AUD_D2 of the registers stand in the invariant; the schedule and the
responses never do. -/
theorem Inv.setRecords (h : Inv s) (c : Csrs) (e : List Event) (r : List Reply)
    (hc : s.ses.sess ≠ .stopped → c.nFft = s.csr.nFft ∧ c.decD = s.csr.decD ∧ c.audD2 = s.csr.audD2) :
    Inv { s with csr := c, sched := e, replies := r } := by
  have hstarted : Started s → s.ses.sess ≠ .stopped → Started { s with csr := c, sched := e, replies := r } := by
    intro hst hs
    obtain ⟨hn, hd, hd2⟩ := hc hs
    exact ⟨hst.session.congr ⟨rfl, rfl, hn, hd, hd2, rfl⟩, hst.filters.congr rfl rfl, { hst.cycle with }⟩
  refine { h with buffers := h.buffers.congr rfl rfl, lifecycle := (lifecycleInv_iff _).2 ?_ }
  rcases h.cases with hl | hl | hl
  · exact .inl { hl with }
  · exact .inr (.inl { hl with toStarted := hstarted hl.toStarted (by simp [hl.sess]) })
  · exact .inr (.inr { hl with toStarted := hstarted hl.toStarted (by simp [hl.sess]) })

theorem Inv.respond (h : Inv s) (port : Port) (st : Status) (n : Nat) (d : List Word) : Inv (s.respond port st n d) :=
  h.setRecords _ _ _ fun _ => ⟨rfl, rfl, rfl⟩

theorem Inv.setSticky (h : Inv s) (b : StickyBit) : Inv (s.setSticky b) := h.setRecords _ _ _ fun _ => ⟨rfl, rfl, rfl⟩

theorem Inv.setConfigError (h : Inv s) (cause : BitVec 4) : Inv (s.setConfigError cause) :=
  h.setRecords _ _ _ fun _ => ⟨rfl, rfl, rfl⟩

theorem inv_illegal (h : Inv s) (port : Port) : Ensures (illegal port s) Inv :=
  ensures_next.2 ((h.setSticky _).respond ..)

theorem Inv.setIq (h : Inv s) {q : Queue C32} (hq : QueueInv s.cfg.queueView s.cfg.capIn q)
    (hclosed : s.ses.sess = .running ∨ StaysClosed s.cfg.capIn s.iq q) : Inv (s.setIq q) := by
  refine { h with iq := hq, buffers := h.buffers.congr rfl rfl, lifecycle := (lifecycleInv_iff _).2 ?_ }
  rcases h.cases with hl | hl | hl
  · have hq' := hclosed.resolve_left (by simp [hl.sess])
    exact .inl { hl with iq := hq'.2 hl.iq }
  · exact .inr (.inl { hl with session := { hl.session with }, filters := { hl.filters with }, cycle := { hl.cycle with } })
  · have hq' := hclosed.resolve_left (by simp [hl.sess])
    exact .inr (.inr { hl with
      session := { hl.session with }, filters := { hl.filters with }, cycle := { hl.cycle with },
      iqClosed := hq'.1 hl.iqClosed })

theorem Inv.setOq (h : Inv s) {q : Queue F32} (hq : QueueInv s.cfg.queueView s.cfg.capOut q)
    (hclosed : s.ses.sess = .running ∨ StaysClosed s.cfg.capOut s.oq q) : Inv (s.setOq q) := by
  refine { h with oq := hq, buffers := h.buffers.congr rfl rfl, lifecycle := (lifecycleInv_iff _).2 ?_ }
  rcases h.cases with hl | hl | hl
  · have hq' := hclosed.resolve_left (by simp [hl.sess])
    exact .inl { hl with oq := hq'.2 hl.oq }
  · exact .inr (.inl { hl with session := { hl.session with }, filters := { hl.filters with }, cycle := { hl.cycle with } })
  · have hq' := hclosed.resolve_left (by simp [hl.sess])
    exact .inr (.inr { hl with
      session := { hl.session with }, filters := { hl.filters with }, cycle := { hl.cycle with },
      oqClosed := hq'.1 hl.oqClosed })

/-- Closing both queues and raising the stop signal, the stop sequence's effect (46_control R340). -/
theorem Inv.beginStop (h : Inv s) : Inv s.beginStop := by
  by_cases hs : s.ses.sess = .running
  · have hl := h.running hs
    rw [s.beginStop_of_running hs]
    exact { h with
      iq := h.iq.setOpen false, oq := h.oq.setOpen false, buffers := h.buffers.congr rfl rfl
      lifecycle := (lifecycleInv_iff _).2 (.inr (.inr
        { session := { hl.session with }, filters := { hl.filters with }, cycle := { hl.cycle with }
          sess := rfl, worker := .inl hl.active, stopReq := rfl, iqClosed := rfl, oqClosed := rfl })) }
  · rwa [s.beginStop_of_not_running hs]

/-- The stop completion leaves a stopped session (46_control R346). -/
theorem Inv.stopComplete (h : Inv s) : Inv s.stopComplete where
  params := h.params
  rom := h.rom
  upcLt := Nat.succ_pos 16
  iq := .destroyed h.params.capInLow h.iq.bufWf h.iq.inRange
  oq := .destroyed h.params.capOutLow h.oq.bufWf h.oq.inRange
  buffers := h.buffers.forgetWork.congr rfl rfl
  lifecycle := (lifecycleInv_iff _).2 (.inl
    { sess := rfl, wstate := rfl, stopReq := rfl, upc := rfl, short := rfl, dsp := rfl
      iq := ⟨rfl, rfl, rfl, rfl, rfl, rfl⟩, oq := ⟨rfl, rfl, rfl, rfl, rfl, rfl⟩, noWork := ⟨rfl, rfl, rfl, rfl⟩ })

/-! ### Updates of the worker -/

/-- What every command of the worker leaves as it was, its move on a queue apart. -/
structure WorkerFrame (s t : State) : Prop extends SameSession s t where
  rom    : t.rom = s.rom
  iq     : t.iq = s.iq
  oq     : t.oq = s.oq
  wstate : t.seq.wstate = s.seq.wstate

/-- A command of the worker keeps the session's part of the invariant; what the ROM's progress says is left to it. -/
theorem Inv.of_frame (h : Inv s) (ha : s.seq.wstate = .active) (hu : t.seq.upc < 17) (hb : BuffersInv t)
    (hf : FiltersInv t) (hc : CycleInv t)
    (e : WorkerFrame s t := by exact ⟨⟨rfl, rfl, rfl, rfl, rfl, rfl⟩, rfl, rfl, rfl, rfl⟩) : Inv t := by
  have hstarted : Started t := ⟨(h.started ha).session.congr e.toSameSession, hf, hc⟩
  refine
    { params := e.cfg ▸ h.params
      rom := e.rom.trans h.rom
      upcLt := hu
      iq := by rw [e.iq, e.cfg]; exact h.iq
      oq := by rw [e.oq, e.cfg]; exact h.oq
      buffers := hb
      lifecycle := (lifecycleInv_iff t).2 ?_ }
  rcases h.cases with hl | hl | hl
  · exact absurd (ha.symm.trans hl.wstate) (by decide)
  · exact .inr (.inl
      { hstarted with
        sess := by rw [e.ses, hl.sess]
        active := e.wstate.trans ha
        stopReq := by rw [e.ses, hl.stopReq] })
  · exact .inr (.inr
      { hstarted with
        sess := by rw [e.ses, hl.sess]
        worker := .inl (e.wstate.trans ha)
        stopReq := by rw [e.ses, hl.stopReq]
        iqClosed := by rw [e.iq, hl.iqClosed]
        oqClosed := by rw [e.oq, hl.oqClosed] })

theorem Inv.setDsp (h : Inv s) (ha : s.seq.wstate = .active) {d : Filters} (hf : FiltersInv (s.setDsp d)) :
    Inv (s.setDsp d) :=
  h.of_frame ha h.upcLt (h.buffers.congr rfl rfl) hf { (h.started ha).cycle with }

theorem Inv.commitPower (h : Inv s) (ha : s.seq.wstate = .active) (p : PowerBuf) {bins : List F32}
    (hbins : bins.length ≤ s.cfg.nmax) : Inv (s.commitPower p bins bins.length) := by
  have hst := h.started ha
  cases p <;> exact h.of_frame ha h.upcLt (h.buffers.commitPower _ hbins) { hst.filters with } { hst.cycle with }

/-- The micro-address from which the ROM finds a buffer filled (41_worker R230). -/
def readyFrom : CBuf → Nat
  | .wb => 4
  | .db => 6
  | .nb => 10

/-- A buffer the cycle has filled may be written again. -/
theorem Inv.writeC (h : Inv s) {b : CBuf} (hu : readyFrom b ≤ s.seq.upc) {vs : List C32} (hvs : vs.length ≤ s.cfg.nmax) :
    Inv (s.writeC b vs) := by
  have ha := h.active (by cases b <;> simp only [readyFrom] at hu <;> omega)
  have hst := h.started ha
  have hb := h.buffers.writeC b hvs
  obtain ⟨hwb, hdb, hnb, hau, hwin⟩ := (cycleInv_iff s).1 hst.cycle
  cases b <;> refine h.of_frame ha h.upcLt hb { hst.filters with } ((cycleInv_iff _).2 ?_)
  case wb => exact ⟨hwb.writeBlock hu vs, hdb, hnb, hau, hwin⟩
  case db => exact ⟨hwb, hdb.writeBlock hu vs, hnb, hau, hwin⟩
  case nb => exact ⟨hwb, hdb, hnb.writeBlock hu vs, hau, hwin⟩

theorem Inv.writeAu (h : Inv s) (hu : 11 ≤ s.seq.upc) {vs : List F32} (hvs : vs.length ≤ s.cfg.nmax) :
    Inv (s.writeAu vs) := by
  have ha := h.active (by omega)
  have hst := h.started ha
  obtain ⟨hwb, hdb, hnb, hau, hwin⟩ := (cycleInv_iff s).1 hst.cycle
  exact h.of_frame ha h.upcLt (h.buffers.writeAu hvs) { hst.filters with }
    ((cycleInv_iff _).2 ⟨hwb, hdb, hnb, hau.writeBlock hu vs, hwin⟩)

/-- The advance to every micro-address where the ROM finds no other buffer filled than before. -/
theorem Inv.advance (h : Inv s)
    (hu : s.seq.upc ∈ [1, 4, 6, 7, 8, 11, 12, 13, 14, 15] ∨ (s.seq.upc = 3 ∧ s.seq.short = false)) : Inv s.advance := by
  simp only [List.mem_cons, List.not_mem_nil, or_false] at hu
  have ha := h.active (by omega)
  have hst := h.started ha
  obtain ⟨hwb, hdb, hnb, hau, hwin⟩ := (cycleInv_iff s).1 hst.cycle
  have hshort : s.seq.upc = 3 → s.seq.short = false := fun h3 => (hu.resolve_left (by omega)).2
  exact h.of_frame ha (show s.seq.upc + 1 < 17 by omega) (h.buffers.congr rfl rfl) { hst.filters with }
    ((cycleInv_iff _).2
      ⟨hwb.next (by omega) (by omega) hshort _, hdb.next (by omega), hnb.next (by omega), hau.next (by omega), hwin⟩)

/-- Near the ends of a cycle, without values in the working buffers, the window is all the ROM's progress asks for. -/
theorem cycleInv_of_noWork (hwork : s.buf.noWork) (hwin : written s.buf.win s.ses.sN) (hu : s.seq.upc ≤ 2) :
    CycleInv s := by
  obtain ⟨hwb, hdb, hnb, hau⟩ := hwork
  rw [cycleInv_iff, hwb, hdb, hnb, hau]
  exact ⟨blockRead_nil hu, filledFrom_of_lt (by omega), filledFrom_of_lt (by omega), filledFrom_of_lt (by omega), hwin⟩

end Sys2Proof.Machine
end

section
/-! PROOFS. Every command and every turn keeps the invariant. Settles O51. -/

namespace Sys2Proof.Machine

variable {s : State}

theorem inv_workerDone (h : Inv s.advance) {st : Status} {n : Nat} : Ensures (workerDone st n s) Inv :=
  ensures_next.2 (h.respond ..)

/-! ### The engines' lengths -/

section Signal

variable {α : Type} (fir : List α → α) {taps factor : Nat} {st : DecState α}

theorem length_take_cons {hist : List α} (x : α) (h : hist.length = taps - 1) :
    ((x :: hist).take (taps - 1)).length = taps - 1 := by
  rw [List.length_take, List.length_cons]
  omega

theorem decimate_hist_length (h : st.hist.length = taps - 1) (xs : List α) :
    (decimate fir taps factor st xs).2.hist.length = taps - 1 := by
  induction xs generalizing st with
  | nil => exact h
  | cons x xs ih =>
    unfold decimate
    dsimp only
    split <;> exact ih (length_take_cons x h)

/-- Every `factor` inputs give an output, the phase counting those beyond the last one (42_decimator R241). -/
theorem decimate_count (h : st.phase < factor) (xs : List α) :
    (decimate fir taps factor st xs).1.length * factor + (decimate fir taps factor st xs).2.phase =
      st.phase + xs.length ∧ (decimate fir taps factor st xs).2.phase < factor := by
  induction xs generalizing st with
  | nil => simp [decimate, h]
  | cons x xs ih =>
    unfold decimate
    dsimp only
    split
    next hlast =>
      have := ih (st := ⟨(x :: st.hist).take (taps - 1), 0⟩) (by dsimp only; omega)
      simp only [List.length_cons, Nat.add_mul] at this ⊢
      omega
    next hmore =>
      have := ih (st := ⟨(x :: st.hist).take (taps - 1), st.phase + 1⟩) (by dsimp only; omega)
      simp only [List.length_cons] at this ⊢
      omega

/-- A whole number of output periods from phase 0 ends at phase 0 (42_decimator R244). -/
theorem decimate_whole {k : Nat} (hf : 0 < factor) (h0 : st.phase = 0) {xs : List α} (hxs : k * factor = xs.length) :
    (decimate fir taps factor st xs).1.length = k ∧ (decimate fir taps factor st xs).2.phase = 0 := by
  obtain ⟨hsum, hlt⟩ := decimate_count fir (taps := taps) (h0 ▸ hf) xs
  rw [h0, Nat.zero_add, ← hxs] at hsum
  have hk := congrArg (· / factor) hsum
  have hphase := congrArg (· % factor) hsum
  simp only [Nat.mul_comm _ factor, Nat.mul_add_mod, Nat.mul_mod_right, Nat.mod_eq_of_lt hlt] at hphase
  simp only [Nat.mul_comm _ factor, Nat.mul_add_div hf, Nat.div_eq_of_lt hlt, Nat.mul_div_cancel_left _ hf] at hk
  exact ⟨hk, hphase⟩

end Signal

theorem lowPass_length (h hist xs : List F32) : (lowPass h hist xs).1.length = xs.length := by
  induction xs generalizing hist with
  | nil => rfl
  | cons x xs ih => simp [lowPass, ih]

theorem lowPass_hist_length {h hist : List F32} (hh : hist.length = h.length - 1) (xs : List F32) :
    (lowPass h hist xs).2.length = h.length - 1 := by
  induction xs generalizing hist with
  | nil => exact hh
  | cons x xs ih => exact ih (length_take_cons x hh)

theorem demodulate_length (gain : F32) (prev : C32) (xs : List C32) : (demodulate gain prev xs).1.length = xs.length := by
  induction xs generalizing prev with
  | nil => rfl
  | cons x xs ih => simp [demodulate, ih]

/-! ### The commands of the worker, each at its micro-address -/

/-- A cycle begins, or the loop of a stopping session ends (41_worker R210). -/
theorem inv_execSeqTop (h : Inv s) (ha : s.seq.wstate = .active) (hk : s.seq.upc = 0) : Ensures (execSeqTop s) Inv := by
  have hst := h.started ha
  have hwin := hst.cycle.win
  unfold execSeqTop
  simp only [ensures_ite, ensures_next]
  refine ⟨fun hstop => Inv.respond ?_ .., fun _ => inv_workerDone ?_⟩
  · rcases h.cases with hl | hl | hl
    · exact absurd (hl.stopReq.symm.trans hstop) (by decide)
    · exact absurd (hl.stopReq.symm.trans hstop) (by decide)
    · exact { h with
        buffers := h.buffers.forgetWork.congr rfl rfl
        lifecycle := (lifecycleInv_iff _).2 (.inr (.inr { hl with
          session := { hl.session with }
          filters := { hl.filters with }
          cycle := cycleInv_of_noWork ⟨rfl, rfl, rfl, rfl⟩ hwin (by simp [hk])
          worker := .inr ⟨rfl, hk, rfl, rfl, rfl, rfl⟩ })) }
  · exact h.of_frame ha (by simp [hk]) (h.buffers.forgetWork.congr rfl rfl) { hst.filters with }
      (cycleInv_of_noWork ⟨rfl, rfl, rfl, rfl⟩ hwin (by simp [hk]))

theorem inv_execSeqWait (h : Inv s) (hk : s.seq.upc = 1) : Ensures (execSeqWait s) Inv := by
  unfold execSeqWait
  simp only [ensures_ite, ensures_next]
  exact ⟨fun _ => inv_workerDone (h.advance (.inl (by simp [hk]))), fun _ => h⟩

/-- QREAD fills WB unless the block is short. -/
theorem inv_execQread (h : Inv s) (hk : s.seq.upc = 2) : Ensures (execQread .wb .n s) Inv := by
  have ha := h.active (by omega)
  have hlen : (s.readIq s.ses.sN).out.length ≤ s.ses.sN := queueRead_out_length_le ..
  have hN := (h.started ha).session.sN_le
  have h1 : Inv (s.setIq (s.readIq s.ses.sN).queue) :=
    h.setIq (h.iq.read _ _) (.inr (staysClosed_read ..))
  have hst := h1.started ha
  obtain ⟨-, hdb, hnb, hau, hwin⟩ := (cycleInv_iff _).1 hst.cycle
  unfold execQread
  rw [withLen_of_le s (len := .n) hN]
  refine inv_workerDone ?_
  refine h1.of_frame ha (by simp [hk])
    ((h1.buffers.writeC .wb (hlen.trans hN)).congr rfl rfl) { hst.filters with } ((cycleInv_iff _).2 ?_)
  refine ⟨⟨fun hu => written_of_length ?_ _, fun hu => ?_⟩, hdb.next (by simp [hk]), hnb.next (by simp [hk]),
    hau.next (by simp [hk]), hwin⟩
  · change 4 ≤ s.seq.upc + 1 ∨ (s.seq.upc + 1 = 3 ∧ decide ((s.readIq s.ses.sN).out.length < s.ses.sN) = false) at hu
    simp only [decide_eq_false_iff_not, Nat.not_lt] at hu
    exact (hu.resolve_left (by omega)).2
  · change s.seq.upc + 1 = 1 ∨ s.seq.upc + 1 = 2 at hu
    omega

/-- Back to micro-address 0: the cycle's buffers are as SEQ_TOP finds them where the block was short. -/
theorem inv_execSeqJshort (h : Inv s) (hk : s.seq.upc = 3) : Ensures (execSeqJshort 0 s) Inv := by
  have ha := h.active (by omega)
  have hst := h.started ha
  obtain ⟨-, hdb, hnb, hau, hwin⟩ := (cycleInv_iff s).1 hst.cycle
  unfold execSeqJshort
  simp only [ensures_ite, ensures_next]
  refine ⟨fun _ => Inv.respond ?_ .., fun hfull => inv_workerDone (h.advance (.inr ⟨hk, by simpa using hfull⟩))⟩
  refine h.of_frame ha (by simp) (h.buffers.congr rfl rfl)
    { hst.filters with } ((cycleInv_iff _).2 ⟨⟨by simp, by simp⟩, ?_, ?_, ?_, hwin⟩)
  · exact ⟨by simp, fun _ => hdb.2 (by omega)⟩
  · exact ⟨by simp, fun _ => hnb.2 (by omega)⟩
  · exact ⟨by simp, fun _ => hau.2 (by omega)⟩

theorem inv_execSeqLatch (h : Inv s) (hk : s.seq.upc = 4) : Ensures (execSeqLatch s) Inv := by
  have ha := h.active (by omega)
  have hst := h.started ha
  have h1 : Inv (s.setSeq { s.seq with latWin := s.csr.winEn, latUo := s.csr.userOffset }) :=
    h.of_frame ha h.upcLt (h.buffers.congr rfl rfl)
      { hst.filters with } { hst.cycle with }
  refine inv_workerDone (Inv.advance ?_ (.inl (by simp [hk])))
  exact h1.setRecords _ _ _ fun _ => ⟨rfl, rfl, rfl⟩

/-- BUF_COPY fills DB. -/
theorem inv_execBufCopy (h : Inv s) (hk : s.seq.upc = 5) :
    Ensures (execBufCopy (.complex .wb) (.complex .db) .n s) Inv := by
  have ha := h.active (by omega)
  have hst := h.started ha
  have hN := hst.session.sN_le
  obtain ⟨hwb, -, hnb, hau, hwin⟩ := (cycleInv_iff s).1 hst.cycle
  unfold execBufCopy
  rw [withLen_of_le s (len := .n) hN]
  refine inv_workerDone ?_
  refine h.of_frame ha (by simp [hk])
    ((h.buffers.writeC .db (by simpa [State.len] using hN)).congr rfl rfl) { hst.filters with } ((cycleInv_iff _).2 ?_)
  exact ⟨hwb.next (by omega) (by omega) (by omega) _,
    filledFrom_of_written (Nat.succ_le_succ hk.ge) (written_of_length (State.readC_length ..).ge _),
    hnb.next (by omega), hau.next (by omega), hwin⟩

/-- The window's length is the session's, so WIN_APPLY never refuses it (43_spectrum R261). -/
theorem inv_execWinApply (h : Inv s) (hk : s.seq.upc = 6) : Ensures (execWinApply .wb .n s) Inv := by
  have hst := h.started (h.active (by omega))
  have hN := hst.session.sN_le
  unfold execWinApply
  rw [withLen_of_le s (len := .n) hN]
  simp only [ensures_ite]
  refine ⟨fun _ => ⟨fun hne => absurd hst.session.winLen hne, fun _ => ?_⟩, fun _ => ?_⟩
  · have h1 := h.writeC (b := .wb) (hk ▸ by decide)
      (vs := List.zipWith windowSample (s.readC .wb s.ses.sN) (s.readWin s.ses.sN)) (by simpa using hN)
    exact inv_workerDone (h1.advance (.inl (by simp [hk])))
  · exact inv_workerDone (h.advance (.inl (by simp [hk])))

/-- FFT_FWD of a buffer the cycle has filled, at a length the session supports. -/
theorem inv_execFftFwd (h : Inv s) {b : CBuf} {len : Len} (hb : readyFrom b ≤ s.seq.upc)
    (hu : s.seq.upc = 7 ∨ s.seq.upc = 14) (hlen : supported s.cfg.nmax (s.len len) = true) :
    Ensures (execFftFwd b len s) Inv := by
  have hle := ((supported_iff _ _).1 hlen).2.2
  unfold execFftFwd
  rw [withLen_of_le s hle]
  simp only [hlen, if_true]
  exact inv_workerDone ((h.writeC hb (by simpa [numDft] using hle)).advance
    (.inl (by rcases hu with hu | hu <;> simp [hu])))

theorem inv_execSpecPower (h : Inv s) {b : CBuf} {p : PowerBuf} {len : Len} (hu : s.seq.upc = 8 ∨ s.seq.upc = 15)
    (hlen : s.len len ≤ s.cfg.nmax) : Ensures (execSpecPower b p len s) Inv := by
  have ha := h.active (by omega)
  unfold execSpecPower
  rw [withLen_of_le s hlen]
  have h1 := h.commitPower ha p (bins := (s.readC b (s.len len)).map (binDb (s.powerOffset p))) (by simpa using hlen)
  simp only [List.length_map, State.readC_length] at h1
  refine inv_workerDone (h1.advance (.inl ?_))
  cases p <;> rcases hu with hu | hu <;> simp [State.commitPower, hu]

/-- DECIMATE.0 fills NB and ends at phase 0. -/
theorem inv_execDecimate0 (h : Inv s) (hk : s.seq.upc = 9) : Ensures (execDecimate0 .db .nb .n s) Inv := by
  have ha := h.active (by omega)
  have hst := h.started ha
  have hses := hst.session
  obtain ⟨st, hdec, hhist, hphase⟩ := hst.filters.dec0
  have hM := decimate_whole (firComplex s.cfg.h0) (taps := s.cfg.h0.length) hses.sD_pos hphase
    (xs := s.readC .db s.ses.sN) (k := s.ses.sM) (by simpa using hses.mExact)
  obtain ⟨hwb, hdb, -, hau, hwin⟩ := (cycleInv_iff s).1 hst.cycle
  unfold execDecimate0
  rw [withLen_of_le s (len := .n) hses.sN_le]
  simp only [hdec]
  refine inv_workerDone ?_
  refine h.of_frame ha (by simp [hk])
    ((h.buffers.writeC .nb (hM.1.trans_le hses.sM_le)).congr rfl rfl)
    { hst.filters with dec0 := ⟨_, rfl, decimate_hist_length _ hhist _, hM.2⟩ } ((cycleInv_iff _).2 ?_)
  exact ⟨hwb.next (by omega) (by omega) (by omega) _, hdb.next (by omega),
    filledFrom_of_written (Nat.succ_le_succ hk.ge) (written_of_length hM.1.ge _), hau.next (by omega), hwin⟩

/-- FM_DEMOD fills AU. -/
theorem inv_execFmDemod (h : Inv s) (hk : s.seq.upc = 10) : Ensures (execFmDemod .nb .m s) Inv := by
  have ha := h.active (by omega)
  have hst := h.started ha
  have hM := hst.session.sM_le
  obtain ⟨prev, hfm⟩ := Option.isSome_iff_exists.1 hst.filters.fm
  have hlen : (demodulate s.cfg.fmGain prev (s.readC .nb s.ses.sM)).1.length = s.ses.sM := by
    rw [demodulate_length, State.readC_length]
  obtain ⟨hwb, hdb, hnb, -, hwin⟩ := (cycleInv_iff s).1 hst.cycle
  unfold execFmDemod
  rw [withLen_of_le s (len := .m) hM]
  simp only [hfm]
  refine inv_workerDone ?_
  refine h.of_frame ha (by simp [hk]) ((h.buffers.writeAu (hlen.trans_le hM)).congr rfl rfl)
    { hst.filters with fm := rfl } ((cycleInv_iff _).2 ?_)
  exact ⟨hwb.next (by omega) (by omega) (by omega) _, hdb.next (by omega), hnb.next (by omega),
    filledFrom_of_written (Nat.succ_le_succ hk.ge) (written_of_length hlen.ge _), hwin⟩

theorem inv_execLpf (h : Inv s) (hk : s.seq.upc = 11) : Ensures (execLpf .m s) Inv := by
  have ha := h.active (by omega)
  have hst := h.started ha
  have hM := hst.session.sM_le
  obtain ⟨hist, hlpf, hhist⟩ := hst.filters.lpf
  unfold execLpf
  rw [withLen_of_le s (len := .m) hM]
  simp only [hlpf]
  have h1 := h.setDsp ha (d := { s.dsp with lpf := some (lowPass s.cfg.h2 hist (s.readAu s.ses.sM)).2 })
    { hst.filters with lpf := ⟨_, rfl, lowPass_hist_length hhist _⟩ }
  have h2 := h1.writeAu hk.ge (vs := (lowPass s.cfg.h2 hist (s.readAu s.ses.sM)).1) (by simpa [lowPass_length] using hM)
  exact inv_workerDone (h2.advance (.inl (by simp [hk])))

/-- DECIMATE.1 ends at phase 0. -/
theorem inv_execDecimate1 (h : Inv s) (hk : s.seq.upc = 12) : Ensures (execDecimate1 .m s) Inv := by
  have ha := h.active (by omega)
  have hst := h.started ha
  have hses := hst.session
  obtain ⟨st, hdec, hhist, hphase⟩ := hst.filters.dec1
  have hK := decimate_whole (firReal s.cfg.h1) (taps := s.cfg.h1.length) hses.sD2_pos hphase
    (xs := s.readAu s.ses.sM) (k := s.ses.sK) (by simpa using hses.kExact)
  unfold execDecimate1
  rw [withLen_of_le s (len := .m) hses.sM_le]
  simp only [hdec]
  have h1 := h.setDsp ha (d := { s.dsp with dec1 := some (s.dec1Run st (s.readAu s.ses.sM)).2 })
    { hst.filters with dec1 := ⟨_, rfl, decimate_hist_length _ hhist _, hK.2⟩ }
  exact inv_workerDone ((h1.writeAu (hk ▸ by decide) (hK.1.trans_le hses.sK_le)).advance (.inl (by simp [hk])))

theorem inv_execQwriteOq (h : Inv s) (hk : s.seq.upc = 13) : Ensures (execQwriteOq .k s) Inv := by
  have hses := (h.started (h.active (by omega))).session
  have h1 : Inv (s.setOq (s.writeOq (s.readAu s.ses.sK)).queue) := h.setOq (h.oq.write _) (.inr (staysClosed_write ..))
  unfold execQwriteOq
  rw [withLen_of_le s (len := .k) hses.sK_le]
  dsimp only
  split
  · refine inv_workerDone (Inv.advance ?_ (.inl (by simp [hk])))
    exact h1.setRecords _ _ _ fun _ => ⟨rfl, rfl, rfl⟩
  · exact inv_workerDone (h1.advance (.inl (by simp [hk])))

theorem inv_execSeqEnd (h : Inv s) (hk : s.seq.upc = 16) : Ensures (execSeqEnd s) Inv := by
  have ha := h.active (by omega)
  have hst := h.started ha
  have hwin := hst.cycle.win
  refine ensures_next.2 (Inv.respond ?_ ..)
  exact h.of_frame ha (by simp) (h.buffers.forgetWork.congr rfl rfl) { hst.filters with }
    (cycleInv_of_noWork ⟨rfl, rfl, rfl, rfl⟩ hwin (by simp))

/-- The ACTIVE worker's turn runs the microprogram's command at upc. -/
theorem Inv.exists_microcommand (h : Inv s) (ha : s.seq.wstate = .active) :
    ∃ i, microcommands[s.seq.upc]? = some i ∧ runWorker s = exec i s :=
  ⟨_, List.getElem?_eq_getElem h.upcLt, runWorker_of_microprogram h.rom ha (List.getElem?_eq_getElem h.upcLt)⟩

theorem inv_runWorker (h : Inv s) : Ensures (runWorker s) Inv := by
  by_cases ha : s.seq.wstate = .active
  · have hses := (h.started ha).session
    have hlt := h.upcLt
    obtain ⟨i, hi, hrun⟩ := h.exists_microcommand ha
    rw [hrun]
    generalize hk : s.seq.upc = k at hi hlt
    interval_cases k <;> cases hi
    · exact inv_execSeqTop h ha hk
    · exact inv_execSeqWait h hk
    · exact inv_execQread h hk
    · exact inv_execSeqJshort h hk
    · exact inv_execSeqLatch h hk
    · exact inv_execBufCopy h hk
    · exact inv_execWinApply h hk
    · exact inv_execFftFwd h (hk ▸ by decide) (.inl hk) hses.supportN
    · exact inv_execSpecPower h (.inl hk) hses.sN_le
    · exact inv_execDecimate0 h hk
    · exact inv_execFmDemod h hk
    · exact inv_execLpf h hk
    · exact inv_execDecimate1 h hk
    · exact inv_execQwriteOq h hk
    · exact inv_execFftFwd h (hk ▸ by decide) (.inr hk) hses.supportM
    · exact inv_execSpecPower h (.inr hk) hses.sM_le
    · exact inv_execSeqEnd h hk
  · rw [runWorker_of_not_active ha]
    exact ensures_next.2 h

/-! ### The commands of the external ports -/

theorem isPowerOfTwo_of_dvd {m n : Nat} (hn : isPowerOfTwo n = true) (hm : m ∣ n) : isPowerOfTwo m = true := by
  rw [isPowerOfTwo, beq_iff_eq] at hn ⊢
  rw [hn] at hm
  obtain ⟨j, -, rfl⟩ := (Nat.dvd_prime_pow Nat.prime_two).1 hm
  rw [Nat.log2_two_pow]

/-- A configuration ConfigCheck passes makes the session quantities of 46_control R335. -/
theorem sessionInv_startSession (hcheck : s.configCheck = 0) : SessionInv s.startSession := by
  unfold State.configCheck at hcheck
  dsimp only at hcheck
  split_ifs at hcheck with hN hD hM hD2 hin hout
  simp only [not_or, Nat.not_lt, Decidable.not_not, Bool.not_eq_false] at hN hD hM hD2 hin hout
  obtain ⟨hpow, hN2, hNmax⟩ := hN
  have hdvd : s.csr.decD.toNat ∣ s.csr.nFft.toNat := Nat.dvd_of_mod_eq_zero hD.2
  have hdvd2 : s.csr.audD2.toNat ∣ s.csr.nFft.toNat / s.csr.decD.toNat := Nat.dvd_of_mod_eq_zero hD2.2
  have hMle : s.csr.nFft.toNat / s.csr.decD.toNat ≤ s.cfg.nmax := (Nat.div_le_self _ _).trans hNmax
  exact
    { nEq := rfl, dEq := rfl, d2Eq := rfl, winLen := rfl, fitsIn := hin, fitsOut := hout
      supportN := (supported_iff _ _).2 ⟨hpow, hN2, hNmax⟩
      supportM := (supported_iff _ _).2 ⟨isPowerOfTwo_of_dvd hpow (Nat.div_dvd_of_dvd hdvd), hM, hMle⟩
      mExact := Nat.div_mul_cancel hdvd
      kExact := Nat.div_mul_cancel hdvd2
      kLow := Nat.div_pos (Nat.le_of_dvd (by omega) hdvd2) (Nat.pos_of_ne_zero hD2.1) }

theorem filtersInv_startSession : FiltersInv s.startSession where
  dec0 := ⟨_, rfl, List.length_replicate, rfl⟩
  dec1 := ⟨_, rfl, List.length_replicate, rfl⟩
  lpf := ⟨_, rfl, List.length_replicate⟩
  fm := rfl

theorem cycleInv_startSession : CycleInv s.startSession := by
  have hwin : written (cellsFrom 0 (windowFor s.csr.nFft.toNat)) s.csr.nFft.toNat := by
    simpa [windowFor] using written_cellsFrom (vs := windowFor s.csr.nFft.toNat)
  exact cycleInv_of_noWork ⟨rfl, rfl, rfl, rfl⟩ hwin (Nat.zero_le 2)

theorem Inv.startSession (h : Inv s) (hcheck : s.configCheck = 0) : Inv s.startSession := by
  have hses := sessionInv_startSession hcheck
  exact
    { params := h.params
      rom := h.rom
      upcLt := Nat.succ_pos 16
      iq := h.iq.created h.params.capInLow
      oq := h.oq.created h.params.capOutLow
      buffers := (h.buffers.forgetWork.loadWindow hses.sN_le).congr rfl rfl
      lifecycle := (lifecycleInv_iff _).2 (.inr (.inl
        { session := hses, filters := filtersInv_startSession, cycle := cycleInv_startSession
          sess := rfl, active := rfl, stopReq := rfl })) }

theorem inv_execAcqStart (h : Inv s) : Ensures (execAcqStart s) Inv := by
  unfold execAcqStart
  simp only [ensures_ite, ensures_raise, ensures_next]
  exact ⟨fun _ => h.respond .., fun _ =>
    ⟨fun _ => (h.setConfigError _).respond ..,
      fun hcheck => (h.startSession (Decidable.not_not.1 hcheck)).respond ..⟩⟩

/-- A register the invariant names is written in a stopped session only (10_state R51). -/
theorem Inv.csrStore (h : Inv s) {r : Csr} (hr : r.access = .rwStopped → s.ses.sess = .stopped) (v : Word) :
    Inv (s.csrStore r v) := by
  cases r
  case nFft => exact h.setRecords _ _ _ fun hs => absurd (hr rfl) hs
  case decD => exact h.setRecords _ _ _ fun hs => absurd (hr rfl) hs
  case audD2 => exact h.setRecords _ _ _ fun hs => absurd (hr rfl) hs
  all_goals exact h.setRecords _ _ _ fun _ => ⟨rfl, rfl, rfl⟩

theorem inv_execCsrWrite (h : Inv s) (addr : BitVec 12) (v : Word) : Ensures (execCsrWrite addr v s) Inv := by
  unfold execCsrWrite
  split
  · exact ensures_next.2 ((h.setSticky _).respond ..)
  · simp only [ensures_ite, ensures_raise, ensures_next]
    refine ⟨fun _ => inv_illegal h _, fun _ => ⟨fun _ => h.respond .., fun hr => Inv.respond (h.csrStore ?_ v) ..⟩⟩
    simpa using hr

theorem inv_execCsrRead (h : Inv s) (addr : BitVec 12) : Ensures (execCsrRead addr s) Inv := by
  unfold execCsrRead
  split
  · exact ensures_next.2 ((h.setSticky _).respond ..)
  · exact ensures_next.2 (h.respond ..)

theorem inv_execQopen (h : Inv s) (q : QueueSel) : Ensures (execQopen q s) Inv := by
  unfold execQopen
  simp only [ensures_ite, ensures_next, ensures_raise]
  refine ⟨fun hs => Inv.respond ?_ .., fun _ => h.respond ..⟩
  cases q
  case iq => exact h.setIq (h.iq.setOpen true) (.inl hs)
  case oq => exact h.setOq (h.oq.setOpen true) (.inl hs)

theorem inv_execQclose (h : Inv s) (q : QueueSel) : Ensures (execQclose q s) Inv := by
  refine ensures_next.2 (Inv.respond ?_ ..)
  cases q
  case iq => exact h.setIq (h.iq.setOpen false) (.inr staysClosed_close)
  case oq => exact h.setOq (h.oq.setOpen false) (.inr staysClosed_close)

theorem inv_execQwriteIq (h : Inv s) (block : List C32) : Ensures (execQwriteIq block s) Inv := by
  have h1 : Inv (s.setIq (s.writeIq block).queue) := h.setIq (h.iq.write _) (.inr (staysClosed_write ..))
  refine ensures_next.2 (Inv.respond ?_ ..)
  split
  · exact h1.setRecords _ _ _ fun _ => ⟨rfl, rfl, rfl⟩
  · exact h1

theorem Inv.readOq (h : Inv s) (max : Nat) : Inv (s.setOq (s.readOq max).queue) :=
  h.setOq (h.oq.read _ _) (.inr (staysClosed_read ..))

theorem Inv.underrunOq (h : Inv s) : Inv s.underrunOq := by
  unfold State.underrunOq
  split
  · exact h
  · exact h.readOq _

theorem inv_execAudPull (h : Inv s) (frames : Nat) : Ensures (execAudPull frames s) Inv := by
  unfold execAudPull
  simp only [ensures_ite, ensures_next]
  refine ⟨fun _ => h.respond .., fun _ => ⟨fun _ => (h.readOq _).respond .., fun _ => Inv.respond ?_ ..⟩⟩
  exact h.underrunOq.setRecords _ _ _ fun _ => ⟨rfl, rfl, rfl⟩

theorem inv_execSnapRead (h : Inv s) (sel : PowerBuf) (count : Nat) : Ensures (execSnapRead sel count s) Inv := by
  unfold execSnapRead
  simp only [ensures_ite, ensures_raise, ensures_addrError, ensures_next]
  exact ⟨fun _ => h.respond .., fun _ => ⟨fun _ => (h.setSticky _).respond .., fun _ => h.respond ..⟩⟩

theorem inv_runCommand (h : Inv s) (port : ExtPort) (w : Word) (payload : List Word) :
    Ensures (runCommand port w payload s) Inv := by
  cases hd : decode (portOfExt port) w payload with
  | error r =>
    rw [runCommand_of_error hd]
    exact inv_illegal h _
  | ok i =>
    rw [runCommand_of_ok hd]
    cases port
    case p =>
      rcases decodeP_cases hd with ⟨block, rfl⟩ | rfl
      · exact inv_execQwriteIq h block
      · exact ensures_next.2 ((h.setSticky _).beginStop.respond ..)
    case a =>
      obtain ⟨frames, rfl⟩ := decodeA_cases hd
      exact inv_execAudPull h frames
    case s =>
      obtain ⟨sel, count, rfl⟩ := decodeS_cases hd
      exact inv_execSnapRead h sel count
    case h =>
      rcases decodeH_cases hd with ⟨q, rfl⟩ | ⟨q, rfl⟩ | ⟨q, rfl⟩ | rfl | rfl | ⟨addr, rfl⟩ | ⟨addr, v, rfl⟩
      · exact ensures_next.2 (h.respond ..)
      · exact inv_execQopen h q
      · exact inv_execQclose h q
      · exact inv_execAcqStart h
      · exact ensures_next.2 (h.beginStop.respond ..)
      · exact inv_execCsrRead h addr
      · exact inv_execCsrWrite h addr v

/-! ### Every turn -/

theorem inv_runControl (h : Inv s) : Ensures (runControl s) Inv := by
  unfold runControl
  simp only [ensures_ite, ensures_next]
  exact ⟨fun _ => h.stopComplete, fun _ => h⟩

theorem inv_runSync (h : Inv s) (q : QueueSel) (cv pv : Nat) : Ensures (runSync q cv pv s) Inv := by
  cases q
  case iq => exact ensures_next.2 (h.setIq (h.iq.sync cv pv) (.inr (staysClosed_sync ..)))
  case oq => exact ensures_next.2 (h.setOq (h.oq.sync cv pv) (.inr (staysClosed_sync ..)))

theorem inv_runEvent (h : Inv s) (e : Event) : Ensures (runEvent e s) Inv := by
  cases e with
  | command port w payload => exact inv_runCommand h port w payload
  | worker => exact inv_runWorker h
  | control => exact inv_runControl h
  | sync q cv pv => exact inv_runSync h q cv pv

/-- Settles O51: a step is a turn of an agent, and every turn keeps the invariant. -/
theorem everyStepKeepsTheInvariant : Obligations.EveryStepKeepsTheInvariant := by
  intro s t h ht
  rcases step_cases s with ⟨e, rest, -, he⟩ | ⟨e, -, -, he⟩ | ⟨-, -, he⟩ <;> rw [he] at ht
  · have h1 : Inv (s.setSched rest) := h.setRecords _ _ _ fun _ => ⟨rfl, rfl, rfl⟩
    exact inv_runEvent h1 e t ht
  · exact inv_runEvent h e t ht
  · cases ht
    exact h

end Sys2Proof.Machine
end

section
/-! PROOFS. The state after reset (10_state R90) meets its table and the invariant. Settles O27 and O50. -/

namespace Sys2Proof.Machine

theorem statusWord_resetOf (p : Params) : statusWord (State.resetOf p) = 0 := by
  simp only [statusWord, State.isRunning, State.resetOf, Csrs.reset, Queue.destroyed]
  rfl

theorem outRate_resetOf (p : Params) : (State.resetOf p).outRate = 0 := by
  simp [State.outRate, State.resetOf, Csrs.reset]

theorem audRate_resetOf (p : Params) : (State.resetOf p).audRate = 0 := by
  simp [State.audRate, State.resetOf, Csrs.reset]

/-- Settles O27: State.resetOf writes the reset column out, but for STATUS and the two rates, which are computed from it. -/
theorem resetState : Obligations.ResetState := by
  intro p
  refine ⟨rfl, rfl, rfl, rfl, rfl, rfl, rfl, rfl, rfl, rfl, rfl, fun _ => ⟨rfl, rfl, rfl, rfl, rfl, rfl, rfl⟩, fun b => ?_,
    statusWord_resetOf p, ?_, rfl⟩
  · cases b <;> exact ⟨rfl, rfl⟩
  · simp only [List.map_cons, List.map_nil, State.csrValue, statusWord_resetOf, outRate_resetOf, audRate_resetOf]
    rfl

theorem buffersInv_resetOf (p : Params) : BuffersInv (State.resetOf p) where
  wb := fits_nil _
  db := fits_nil _
  nb := fits_nil _
  au := fits_nil _
  pwWb := fits_nil _
  pwNb := fits_nil _
  win := fits_nil _
  wide := written_nil _
  narrow := written_nil _
  wideLen := Nat.zero_le _
  narrowLen := Nat.zero_le _
  winLen := Nat.zero_le _
  winHeld := fun _ hc => absurd hc List.not_mem_nil

/-- Settles O50: both queues are in the destroyed form, the storages list nothing, and the session is stopped. -/
theorem resetSatisfiesInvariant : Obligations.ResetSatisfiesInvariant := fun p hp =>
  { params := hp
    rom := rfl
    upcLt := Nat.succ_pos 16
    iq := .destroyed hp.capInLow Memory.wf_nil (fun _ hc => absurd hc List.not_mem_nil)
    oq := .destroyed hp.capOutLow Memory.wf_nil (fun _ hc => absurd hc List.not_mem_nil)
    buffers := buffersInv_resetOf p
    lifecycle := (lifecycleInv_iff _).2 (.inl
      { sess := rfl, wstate := rfl, stopReq := rfl, upc := rfl, short := rfl, dsp := rfl
        iq := ⟨rfl, rfl, rfl, rfl, rfl, rfl⟩, oq := ⟨rfl, rfl, rfl, rfl, rfl, rfl⟩, noWork := ⟨rfl, rfl, rfl, rfl⟩ }) }

end Sys2Proof.Machine
end

section
/-! PROOFS. The event counters (10_state R71): the commands that touch neither queue nor counter, and what the others do to the
counters. Settles O54. -/

namespace Sys2Proof.Machine

variable {s : State}

/-- The event counters (10_state R70). -/
def Csrs.counters (c : Csrs) : List Word :=
  [c.cntQfullIn, c.cntDropIn, c.cntQfullOut, c.cntDropOut, c.cntUnderrun, c.cntCycles]

/-- A change that leaves the parameters, both queues and every counter as they were. -/
def Quiet (s t : State) : Prop := t.cfg = s.cfg ∧ t.iq = s.iq ∧ t.oq = s.oq ∧ t.csr.counters = s.csr.counters

theorem Quiet.counters {t : State} (h : Quiet s t) : t.csr.counters = s.csr.counters := by
  obtain ⟨-, -, -, hcounters⟩ := h
  exact hcounters

/-- The commands that touch neither a queue nor a counter. -/
def quietCommand : Instr → Bool
  | .qwriteIq _ | .qwriteOq _ | .qread _ _ | .qopen _ | .qclose _ | .acqStart | .acqStop | .csrWrite _ _ | .devFault
  | .audPull _ | .seqEnd => false
  | _ => true

theorem quiet_refused : Ensures (illegal .w s) (Quiet s) := by simp [Quiet, Csrs.counters]

theorem quiet_copyBuffer (src dst : WorkBuf) (n : Nat) : Ensures (copyBuffer src dst n s) (Quiet s) := by
  unfold copyBuffer
  split
  · simp only [ensures_workerDone]
    split <;> simp [Quiet]
  · simp [Quiet]
  · exact quiet_refused
  · exact quiet_refused

theorem exec_quiet {i : Instr} (hi : quietCommand i = true) : Ensures (exec i s) (Quiet s) := by
  cases i with
  | qwriteIq | qwriteOq | qread | qopen | qclose | acqStart | acqStop | csrWrite | devFault | audPull | seqEnd => cases hi
  | qavail => simp [exec, execQavail, Quiet]
  | csrRead addr =>
    simp only [exec, execCsrRead]
    split <;> simp [Quiet, Csrs.counters]
  | snapRead => simp [exec, execSnapRead, Quiet, Csrs.counters]
  | bufCopy src dst => exact ensures_withLen quiet_refused fun n => quiet_copyBuffer src dst n
  | winApply =>
    unfold exec execWinApply
    refine ensures_withLen quiet_refused fun n => ?_
    simp [Quiet, Csrs.counters]
  | fftFwd =>
    unfold exec execFftFwd
    refine ensures_withLen quiet_refused fun n => ?_
    simp [Quiet, Csrs.counters]
  | specPower =>
    unfold exec execSpecPower
    refine ensures_withLen quiet_refused fun n => ?_
    simp [Quiet]
  | decimate0 =>
    unfold exec execDecimate0
    refine ensures_withLen quiet_refused fun n => ?_
    split <;> simp [Quiet]
  | decimate1 =>
    unfold exec execDecimate1
    refine ensures_withLen quiet_refused fun n => ?_
    split <;> simp [Quiet]
  | fmDemod =>
    unfold exec execFmDemod
    refine ensures_withLen quiet_refused fun n => ?_
    split <;> simp [Quiet]
  | lpf =>
    unfold exec execLpf
    refine ensures_withLen quiet_refused fun n => ?_
    split <;> simp [Quiet]
  | seqTop => simp [exec, execSeqTop, Quiet]
  | seqWait => simp [exec, execSeqWait, Quiet]
  | seqLatch => simp [exec, execSeqLatch, Quiet, Csrs.counters]
  | seqJshort => simp [exec, execSeqJshort, Quiet]

/-! ### The commands that move samples or the session -/

@[simp] theorem State.beginStop_csr (s : State) : s.beginStop.csr = s.csr := by
  unfold State.beginStop
  split <;> rfl

@[simp] theorem State.startSession_csr (s : State) : s.startSession.csr = s.csr := rfl

@[simp] theorem State.underrunOq_csr (s : State) : s.underrunOq.csr = s.csr := by
  unfold State.underrunOq
  split <;> rfl

/-- The commands 10_state R71 names. -/
def countingCommand : Instr → Bool
  | .qwriteIq _ | .qwriteOq _ | .audPull _ | .seqEnd | .csrWrite _ _ => true
  | _ => false

theorem exec_keeps_counters {i : Instr} (hi : countingCommand i = false) :
    Ensures (exec i s) fun t => t.csr.counters = s.csr.counters := by
  cases i with
  | qwriteIq | qwriteOq | audPull | seqEnd | csrWrite => cases hi
  | qread =>
    unfold exec execQread
    refine ensures_withLen (quiet_refused.mono fun t ht => ht.counters) fun n => ?_
    simp
  | qopen => simp [exec, execQopen]
  | qclose => simp [exec, execQclose]
  | acqStart => simp [exec, execAcqStart, Csrs.counters]
  | acqStop => simp [exec, execAcqStop]
  | devFault => simp [exec, execDevFault, Csrs.counters]
  | _ => exact (exec_quiet rfl).mono fun t ht => ht.counters

/-- An address names one register (10_state R50). -/
theorem addr_of_ofAddr {addr : BitVec 12} {r : Csr} (h : Csr.ofAddr addr = some r) : addr = r.addr := by
  unfold Csr.ofAddr at h
  split at h <;> cases h <;> exact BitVec.eq_of_toNat_eq ‹_›

theorem execQwriteIq_csr (block : List C32) : Ensures (execQwriteIq block s) fun t =>
    ∃ n m k, t.csr = { s.csr with cntQfullIn := n, cntDropIn := m, sticky := k } := by
  unfold execQwriteIq
  dsimp only
  split <;> exact ensures_next.2 ⟨_, _, _, rfl⟩

theorem execQwriteOq_csr (len : Len) : Ensures (execQwriteOq len s) fun t =>
    ∃ n m k, t.csr = { s.csr with cntQfullOut := n, cntDropOut := m, sticky := k } := by
  refine ensures_withLen (ensures_next.2 ⟨_, _, _, rfl⟩) fun n => ?_
  dsimp only
  split <;> exact ensures_next.2 ⟨_, _, _, rfl⟩

theorem execAudPull_csr (frames : Nat) : Ensures (execAudPull frames s) fun t =>
    ∃ n k, t.csr = { s.csr with cntUnderrun := n, sticky := k } := by
  unfold execAudPull
  simp only [ensures_ite, ensures_next]
  refine ⟨fun _ => ⟨_, _, rfl⟩, fun _ => ⟨fun _ => ⟨_, _, rfl⟩, fun _ => ?_⟩⟩
  exact ⟨s.csr.cntUnderrun + 1, s.csr.sticky.set .underrun, by simp [State.countUnderrun]⟩

theorem execCsrWrite_csr (addr : BitVec 12) (v : Word) : Ensures (execCsrWrite addr v s) fun t =>
    t.csr.counters = s.csr.counters ∨ ∃ r : Csr, addr = r.addr ∧ t.csr = (s.csrStore r v).csr := by
  unfold execCsrWrite
  split
  · exact ensures_next.2 (.inl rfl)
  next r hr =>
    simp only [ensures_ite, ensures_illegal, ensures_raise, ensures_next]
    exact ⟨fun _ => .inl rfl, fun _ => ⟨fun _ => .inl rfl, fun _ => .inr ⟨r, addr_of_ofAddr hr, rfl⟩⟩⟩

/-- Which counter may change, each where its proposition holds. -/
def CountersChange (c d : Csrs) (qfullIn dropIn qfullOut dropOut underrun cycles : Prop) : Prop :=
  (d.cntQfullIn ≠ c.cntQfullIn → qfullIn) ∧ (d.cntDropIn ≠ c.cntDropIn → dropIn) ∧
  (d.cntQfullOut ≠ c.cntQfullOut → qfullOut) ∧ (d.cntDropOut ≠ c.cntDropOut → dropOut) ∧
  (d.cntUnderrun ≠ c.cntUnderrun → underrun) ∧ (d.cntCycles ≠ c.cntCycles → cycles)

theorem countersChange_of_eq {c d : Csrs} (h : d.counters = c.counters) {qfullIn dropIn qfullOut dropOut underrun cycles : Prop} :
    CountersChange c d qfullIn dropIn qfullOut dropOut underrun cycles := by
  simp only [Csrs.counters, List.cons.injEq, and_true] at h
  obtain ⟨h1, h2, h3, h4, h5, h6⟩ := h
  exact ⟨absurd h1, absurd h2, absurd h3, absurd h4, absurd h5, absurd h6⟩

/-- A host write clears the counter at its address, and no other (46_control R355). -/
theorem csrStore_countersChange (r : Csr) (v : Word) :
    CountersChange s.csr (s.csrStore r v).csr (r.addr = 0x060) (r.addr = 0x064) (r.addr = 0x068) (r.addr = 0x06C)
      (r.addr = 0x070) (r.addr = 0x074) := by
  cases r
  case cntQfullIn => exact ⟨fun _ => rfl, absurd rfl, absurd rfl, absurd rfl, absurd rfl, absurd rfl⟩
  case cntDropIn => exact ⟨absurd rfl, fun _ => rfl, absurd rfl, absurd rfl, absurd rfl, absurd rfl⟩
  case cntQfullOut => exact ⟨absurd rfl, absurd rfl, fun _ => rfl, absurd rfl, absurd rfl, absurd rfl⟩
  case cntDropOut => exact ⟨absurd rfl, absurd rfl, absurd rfl, fun _ => rfl, absurd rfl, absurd rfl⟩
  case cntUnderrun => exact ⟨absurd rfl, absurd rfl, absurd rfl, absurd rfl, fun _ => rfl, absurd rfl⟩
  case cntCycles => exact ⟨absurd rfl, absurd rfl, absurd rfl, absurd rfl, absurd rfl, fun _ => rfl⟩
  all_goals exact countersChange_of_eq rfl

theorem runControl_csr : Ensures (runControl s) fun t => t.csr = s.csr := by
  simp [runControl, State.stopComplete]

theorem runSync_csr (q : QueueSel) (cv pv : Nat) : Ensures (runSync q cv pv s) fun t => t.csr = s.csr := by
  cases q <;> simp [runSync]

/-- Settles O54: what each command leaves in the counters, by the command. -/
theorem countersChangeOnlyByTheirRules : Obligations.CountersChangeOnlyByTheirRules := by
  refine ⟨fun i s t ht => ?_, fun s t q cv pv ht => ht.elim (runControl_csr t) (runSync_csr q cv pv t)⟩
  cases i with
  | qwriteIq block =>
    obtain ⟨n, m, k, hcsr⟩ := execQwriteIq_csr block t ht
    rw [hcsr]
    exact ⟨fun _ => .inl ⟨_, rfl⟩, fun _ => .inl ⟨_, rfl⟩, absurd rfl, absurd rfl, absurd rfl, absurd rfl⟩
  | qwriteOq len =>
    obtain ⟨n, m, k, hcsr⟩ := execQwriteOq_csr len t ht
    rw [hcsr]
    exact ⟨absurd rfl, absurd rfl, fun _ => .inl ⟨_, rfl⟩, fun _ => .inl ⟨_, rfl⟩, absurd rfl, absurd rfl⟩
  | audPull frames =>
    obtain ⟨n, k, hcsr⟩ := execAudPull_csr frames t ht
    rw [hcsr]
    exact ⟨absurd rfl, absurd rfl, absurd rfl, absurd rfl, fun _ => .inl ⟨_, rfl⟩, absurd rfl⟩
  | seqEnd =>
    cases ht
    exact ⟨absurd rfl, absurd rfl, absurd rfl, absurd rfl, absurd rfl, fun _ => .inl rfl⟩
  | csrWrite addr v =>
    rcases execCsrWrite_csr addr v t ht with hsame | ⟨r, rfl, hcsr⟩
    · exact countersChange_of_eq hsame
    · have hr := csrStore_countersChange (s := s) r v
      rw [← hcsr] at hr
      obtain ⟨h1, h2, h3, h4, h5, h6⟩ := hr
      exact ⟨fun h => .inr ⟨v, by rw [h1 h]⟩, fun h => .inr ⟨v, by rw [h2 h]⟩, fun h => .inr ⟨v, by rw [h3 h]⟩,
        fun h => .inr ⟨v, by rw [h4 h]⟩, fun h => .inr ⟨v, by rw [h5 h]⟩, fun h => .inr ⟨v, by rw [h6 h]⟩⟩
  | _ => exact countersChange_of_eq (exec_keeps_counters rfl t ht)

end Sys2Proof.Machine
end

section
/-! PROOFS. What a turn can do to a queue, and so to the samples it holds (10_state R47). Settles O57. -/

namespace Sys2Proof.Machine

/-! ### One queue -/

/-- What a turn can do to a queue, `mayAppend` where the turn is its producer's and `mayRemove` where it is its consumer's. -/
inductive QueueStep {α : Type} (free : Nat → α) (view : QueueView) (cap : Nat) (mayAppend mayRemove : Prop) (q : Queue α) :
    Queue α → Prop
  | setOpen (v : Bool) : QueueStep free view cap mayAppend mayRemove q { q with isOpen := v }
  | write (data : List α) (h : mayAppend) :
    QueueStep free view cap mayAppend mayRemove q (queueWrite view cap q data).queue
  | read (max : Nat) (h : mayRemove) :
    QueueStep free view cap mayAppend mayRemove q (queueRead free view cap q max).queue
  | sync (cv pv : Nat) : QueueStep free view cap mayAppend mayRemove q (q.sync view cap cv pv)
  | create (h : q.avail = 0) : QueueStep free view cap mayAppend mayRemove q (q.created cap)

section Items

variable {α : Type} {free : Nat → α} {view : QueueView} {cap : Nat} {q q' : Queue α} {mayAppend mayRemove : Prop}

theorem items_of_avail_zero (h : q.avail = 0) : q.items free cap = [] := by simp [Queue.items, ringRead, h]

/-- A queue's samples are those of its ring; the open flag and the views are no part of them. -/
theorem items_sync (cv pv : Nat) : (q.sync view cap cv pv).items free cap = q.items free cap := by
  unfold Queue.sync
  split <;> rfl

/-- A read removes from the front what it returns. -/
theorem QueueInv.items_read_eq_drop (h : QueueInv view cap q) (max : Nat) :
    (queueRead free view cap q max).queue.items free cap =
      (q.items free cap).drop (queueRead free view cap q max).out.length := by
  rw [h.items_read free max, List.drop_left]

theorem QueueStep.items (h : QueueInv view cap q) (hs : QueueStep free view cap mayAppend mayRemove q q') :
    ∃ (added : List α) (removed : Nat), q'.items free cap = (q.items free cap).drop removed ++ added ∧
      (added ≠ [] → mayAppend) ∧ (0 < removed → mayRemove) := by
  cases hs with
  | setOpen v => exact ⟨[], 0, by simp [Queue.items], absurd rfl, (absurd · (lt_irrefl 0))⟩
  | write data ha => exact ⟨_, 0, h.items_write free data, fun _ => ha, (absurd · (lt_irrefl 0))⟩
  | read max hr => exact ⟨[], _, by rw [List.append_nil, h.items_read_eq_drop], absurd rfl, fun _ => hr⟩
  | sync cv pv => exact ⟨[], 0, by simp [items_sync], absurd rfl, (absurd · (lt_irrefl 0))⟩
  | create h0 =>
    refine ⟨[], 0, ?_, absurd rfl, (absurd · (lt_irrefl 0))⟩
    rw [items_of_avail_zero h0, items_of_avail_zero (q := q.created cap) rfl]
    rfl

end Items

/-! ### Both queues -/

variable {s t : State} {e : Event}

/-- A turn of `e`: IQ is port P's to fill and the worker's to drain, OQ the worker's to fill and port A's to drain. -/
structure QueuesStep (e : Event) (s t : State) : Prop where
  cfg : t.cfg = s.cfg
  iq  : QueueStep (Config.unwrittenComplex .iq) s.cfg.queueView s.cfg.capIn (∃ w payload, e = .command .p w payload)
    (e = .worker) s.iq t.iq
  oq  : QueueStep (Config.unwrittenReal .oq) s.cfg.queueView s.cfg.capOut (e = .worker)
    (∃ w payload, e = .command .a w payload) s.oq t.oq

theorem QueuesStep.of_eq (hcfg : t.cfg = s.cfg) (hiq : t.iq = s.iq) (hoq : t.oq = s.oq) : QueuesStep e s t :=
  ⟨hcfg, by rw [hiq]; exact .setOpen s.iq.isOpen, by rw [hoq]; exact .setOpen s.oq.isOpen⟩

theorem Quiet.queuesStep (h : Quiet s t) : QueuesStep e s t := by
  obtain ⟨hcfg, hiq, hoq, -⟩ := h
  exact .of_eq hcfg hiq hoq

theorem queuesStep_beginStop (s : State) : QueuesStep e s s.beginStop := by
  by_cases hs : s.ses.sess = .running
  · rw [s.beginStop_of_running hs]
    exact ⟨rfl, .setOpen false, .setOpen false⟩
  · rw [s.beginStop_of_not_running hs]
    exact .of_eq rfl rfl rfl

theorem queuesStep_setOpen (s : State) (q : QueueSel) (v : Bool) : QueuesStep e s (s.setOpen q v) := by
  cases q
  case iq => exact ⟨rfl, .setOpen v, .setOpen s.oq.isOpen⟩
  case oq => exact ⟨rfl, .setOpen s.iq.isOpen, .setOpen v⟩

theorem queuesStep_illegal (port : Port) : Ensures (illegal port s) (QueuesStep e s) :=
  ensures_next.2 (.of_eq rfl rfl rfl)

theorem QueuesStep.items (h : Inv s) (hs : QueuesStep e s t) :
    (∃ (added : List C32) (removed : Nat), t.iqItems = s.iqItems.drop removed ++ added ∧
      (added ≠ [] → ∃ w payload, e = .command .p w payload) ∧ (0 < removed → e = .worker)) ∧
    (∃ (added : List F32) (removed : Nat), t.oqItems = s.oqItems.drop removed ++ added ∧
      (added ≠ [] → e = .worker) ∧ (0 < removed → ∃ w payload, e = .command .a w payload)) := by
  unfold State.iqItems State.oqItems
  rw [hs.cfg]
  exact ⟨hs.iq.items h.iq, hs.oq.items h.oq⟩

/-! ### Each turn -/

theorem execQread_queuesStep (dst : CBuf) (len : Len) : Ensures (execQread dst len s) (QueuesStep .worker s) := by
  refine ensures_withLen (queuesStep_illegal .w) fun n => ?_
  simp only [ensures_workerDone]
  cases dst <;> exact ⟨rfl, .read n rfl, .setOpen s.oq.isOpen⟩

theorem execQwriteOq_queuesStep (len : Len) : Ensures (execQwriteOq len s) (QueuesStep .worker s) := by
  refine ensures_withLen (queuesStep_illegal .w) fun n => ?_
  dsimp only
  split <;> exact ensures_next.2 ⟨rfl, .setOpen s.iq.isOpen, .write _ rfl⟩

/-- Every command of the microprogram but QREAD, QWRITE OQ and SEQ_END is quiet. -/
theorem microcommands_quiet :
    ∀ i ∈ microcommands, quietCommand i = true ∨ i = .qread .wb .n ∨ i = .qwriteOq .k ∨ i = .seqEnd := by decide

theorem runWorker_queuesStep (h : Inv s) : Ensures (runWorker s) (QueuesStep .worker s) := by
  by_cases ha : s.seq.wstate = .active
  · obtain ⟨i, hi, hrun⟩ := h.exists_microcommand ha
    rw [hrun]
    rcases microcommands_quiet i (List.mem_of_getElem? hi) with hq | rfl | rfl | rfl
    · exact (exec_quiet hq).mono fun t ht => ht.queuesStep
    · exact execQread_queuesStep .wb .n
    · exact execQwriteOq_queuesStep .k
    · exact ensures_next.2 (.of_eq rfl rfl rfl)
  · rw [runWorker_of_not_active ha]
    exact ensures_next.2 (.of_eq rfl rfl rfl)

theorem execQwriteIq_queuesStep (w : Word) (payload : List Word) (block : List C32) :
    Ensures (execQwriteIq block s) (QueuesStep (.command .p w payload) s) := by
  unfold execQwriteIq
  dsimp only
  split <;> exact ensures_next.2 ⟨rfl, .write block ⟨w, payload, rfl⟩, .setOpen s.oq.isOpen⟩

theorem execAudPull_queuesStep (w : Word) (payload : List Word) (frames : Nat) :
    Ensures (execAudPull frames s) (QueuesStep (.command .a w payload) s) := by
  unfold execAudPull
  simp only [ensures_ite, ensures_next]
  refine ⟨fun _ => .of_eq rfl rfl rfl,
    fun _ => ⟨fun _ => ⟨rfl, .setOpen s.iq.isOpen, .read frames ⟨w, payload, rfl⟩⟩, fun _ => ?_⟩⟩
  unfold State.underrunOq
  split
  · exact .of_eq rfl rfl rfl
  · exact ⟨rfl, .setOpen s.iq.isOpen, .read s.oq.cv ⟨w, payload, rfl⟩⟩

/-- A session starts from stopped, where both queues are empty. -/
theorem execAcqStart_queuesStep (h : Inv s) : Ensures (execAcqStart s) (QueuesStep e s) := by
  unfold execAcqStart
  simp only [ensures_ite, ensures_raise, ensures_next]
  refine ⟨fun _ => .of_eq rfl rfl rfl, fun hs => ⟨fun _ => .of_eq rfl rfl rfl, fun _ => ?_⟩⟩
  have hl := h.stopped (Decidable.not_not.1 hs)
  exact ⟨rfl, .create hl.iq.1, .create hl.oq.1⟩

theorem execCsrWrite_queuesStep (addr : BitVec 12) (v : Word) : Ensures (execCsrWrite addr v s) (QueuesStep e s) := by
  unfold execCsrWrite
  split
  · exact ensures_next.2 (.of_eq rfl rfl rfl)
  next r _ =>
    simp only [ensures_ite, ensures_raise, ensures_next]
    refine ⟨fun _ => queuesStep_illegal _, fun _ => ⟨fun _ => .of_eq rfl rfl rfl, fun _ => ?_⟩⟩
    cases r <;> exact .of_eq rfl rfl rfl

theorem runCommand_queuesStep (h : Inv s) (port : ExtPort) (w : Word) (payload : List Word) :
    Ensures (runCommand port w payload s) (QueuesStep (.command port w payload) s) := by
  cases hd : decode (portOfExt port) w payload with
  | error r =>
    rw [runCommand_of_error hd]
    exact queuesStep_illegal _
  | ok i =>
    rw [runCommand_of_ok hd]
    cases port
    case p =>
      rcases decodeP_cases hd with ⟨block, rfl⟩ | rfl
      · exact execQwriteIq_queuesStep w payload block
      · exact ensures_next.2 { queuesStep_beginStop (s.setSticky .devfault) with }
    case a =>
      obtain ⟨frames, rfl⟩ := decodeA_cases hd
      exact execAudPull_queuesStep w payload frames
    case s =>
      obtain ⟨sel, count, rfl⟩ := decodeS_cases hd
      exact (exec_quiet rfl).mono fun t ht => ht.queuesStep
    case h =>
      rcases decodeH_cases hd with ⟨q, rfl⟩ | ⟨q, rfl⟩ | ⟨q, rfl⟩ | rfl | rfl | ⟨addr, rfl⟩ | ⟨addr, v, rfl⟩
      · exact (exec_quiet rfl).mono fun t ht => ht.queuesStep
      · simp only [exec, execQopen, ensures_ite, ensures_raise, ensures_next]
        exact ⟨fun _ => { queuesStep_setOpen s q true with }, fun _ => .of_eq rfl rfl rfl⟩
      · exact ensures_next.2 { queuesStep_setOpen s q false with }
      · exact execAcqStart_queuesStep h
      · exact ensures_next.2 { queuesStep_beginStop s with }
      · exact (exec_quiet rfl).mono fun t ht => ht.queuesStep
      · exact execCsrWrite_queuesStep addr v

theorem runSync_queuesStep (q : QueueSel) (cv pv : Nat) : Ensures (runSync q cv pv s) (QueuesStep e s) := by
  cases q
  case iq => exact ensures_next.2 ⟨rfl, .sync cv pv, .setOpen s.oq.isOpen⟩
  case oq => exact ensures_next.2 ⟨rfl, .setOpen s.iq.isOpen, .sync cv pv⟩

/-- The stop completion destroys both queues; with no stop to complete the control unit changes nothing. -/
theorem runControl_cases : Ensures (runControl s) fun t =>
    t = s ∨ (t.ses.sess = .stopped ∧ t.iqItems = [] ∧ t.oqItems = []) := by
  unfold runControl
  simp only [ensures_ite, ensures_next]
  exact ⟨fun _ => .inr ⟨rfl, items_of_avail_zero rfl, items_of_avail_zero rfl⟩, fun _ => .inl trivial⟩

/-- Settles O57: every turn but the stop completion is a `QueuesStep`, whose constructors say what they do to the samples. -/
theorem onlyTheirAgentsMoveSamples : Obligations.OnlyTheirAgentsMoveSamples := by
  intro s t e h ht
  cases e with
  | command port w payload => exact .inr (QueuesStep.items h (runCommand_queuesStep h port w payload t ht))
  | worker => exact .inr (QueuesStep.items h (runWorker_queuesStep h t ht))
  | sync q cv pv => exact .inr (QueuesStep.items h (runSync_queuesStep q cv pv t ht))
  | control =>
    rcases runControl_cases t ht with rfl | hdestroyed
    · exact .inr (QueuesStep.items h (.of_eq rfl rfl rfl))
    · exact .inl ⟨rfl, hdestroyed⟩

end Sys2Proof.Machine
end

section
/-! PROOFS. A queue is first in, first out (20_memory R113), and the synchroniser's step on one (R112). Settles O12 and O59. -/

namespace Sys2Proof.Machine

section Fifo

variable {α : Type} {free : Nat → α} {view : QueueView} {cap : Nat}

/-- What a queue has accepted is what it has returned, then what it holds; and its invariant. -/
structure FifoInv (free : Nat → α) (view : QueueView) (cap : Nat) (r : QueueTrace α) : Prop where
  fifo  : r.accepted = r.returned ++ r.queue.items free cap
  queue : QueueInv view cap r.queue

theorem fifoInv_created {q : Queue α} (hcap : 0 < cap) (h : QueueInv view cap q) :
    FifoInv free view cap ⟨q.created cap, [], []⟩ :=
  ⟨(items_of_avail_zero (free := free) (cap := cap) (q := q.created cap) rfl).symm, h.created hcap⟩

/-- A write lengthens accepted and held at the end, a read moves the front of the held to the returned. -/
theorem FifoInv.run {r : QueueTrace α} (h : FifoInv free view cap r) (op : QueueOp α) :
    FifoInv free view cap (op.run free view cap r) := by
  obtain ⟨hfifo, hq⟩ := h
  cases op with
  | write data =>
    refine ⟨?_, hq.write data⟩
    simp only [QueueOp.run]
    rw [hfifo, hq.items_write, List.append_assoc]
  | read max =>
    refine ⟨?_, hq.read free max⟩
    simp only [QueueOp.run]
    rw [hfifo, List.append_assoc, ← hq.items_read]
  | setOpen v => exact ⟨hfifo, hq.setOpen v⟩
  | sync cv pv => exact ⟨hfifo.trans (congrArg (r.returned ++ ·) (items_sync cv pv).symm), hq.sync cv pv⟩

end Fifo

/-- Settles O12: `FifoInv` holds at the creation and every operation keeps it. -/
theorem queueIsFirstInFirstOut : Obligations.QueueIsFirstInFirstOut := by
  intro α free view cap q ops hcap hq
  have h : FifoInv free view cap (ops.foldl (QueueOp.run free view cap) ⟨q.created cap, [], []⟩) :=
    List.foldlRecOn ops _ (fifoInv_created hcap hq) fun r hr op _ => hr.run op
  exact ⟨h.fifo, h.queue.availLe, h.queue⟩

/-! ### The synchroniser -/

section Sync

variable {α : Type} {cap : Nat} {q : Queue α} {cv pv : Nat}

/-- With exact views there is nothing to synchronise (20_memory R112). -/
@[simp] theorem sync_exact : q.sync .exact cap cv pv = q := by simp [Queue.sync]

theorem viewsAllowed_iff : viewsAllowed cap q cv pv = true ↔
    q.cv ≤ cv ∧ cv ≤ q.avail ∧ q.pv ≤ pv ∧ pv ≤ cap - q.avail ∧ (q.cv < cv ∨ q.pv < pv) := by
  simp [viewsAllowed, and_assoc]

theorem sync_conservative : q.sync .conservative cap cv pv =
    if q.cv ≤ cv ∧ cv ≤ q.avail ∧ q.pv ≤ pv ∧ pv ≤ cap - q.avail ∧ (q.cv < cv ∨ q.pv < pv)
    then { q with cv := cv, pv := pv } else q := by
  simp only [Queue.sync, viewsAllowed_iff, true_and]

end Sync

/-- Settles O59: the step is `Queue.sync` on the one queue, by the kind of the views. -/
theorem synchroniserEffect : Obligations.SynchroniserEffect := by
  intro s cv pv
  refine ⟨fun hv => ?_, fun hv => ?_⟩
  · simp only [runSync, hv, sync_exact]
    exact ⟨rfl, rfl⟩
  · simp only [runSync, hv, sync_conservative]
    constructor <;> split <;> rfl

end Sys2Proof.Machine
end

section
/-! PROOFS. What no agent writes: the ROM, the parameters (20_memory R117) and, but for SPEC_POWER, what the last commit left in a
Power Spectrum Buffer (R115). Settles O31 and O55. -/

namespace Sys2Proof.Machine

variable {s t : State}

/-- What a commit leaves in a Power Spectrum Buffer: the bins, their number and the flag (10_state R61, R62). -/
def Buffers.commit (b : Buffers) : PowerBuf → Memory F32 × Nat × Bool
  | .wide => (b.pwWb, b.lastLenWb, b.wbValid)
  | .narrow => (b.pwNb, b.lastLenNb, b.nbValid)

theorem commit_eq_iff (p : PowerBuf) : t.buf.commit p = s.buf.commit p ↔
    t.powerBins p = s.powerBins p ∧ t.powerLen p = s.powerLen p ∧ t.powerValid p = s.powerValid p := by
  cases p <;> simp [Buffers.commit, State.powerBins, State.powerLen, State.powerValid]

/-- A change that leaves the ROM, the parameters and both commits as they were. -/
def KeepsFixed (s t : State) : Prop := t.rom = s.rom ∧ t.cfg = s.cfg ∧ t.buf.commit = s.buf.commit

/-! ### What the shared operations leave -/

@[simp] theorem Buffers.forgetWork_commit (b : Buffers) : b.forgetWork.commit = b.commit := rfl

@[simp] theorem State.writeC_commit (s : State) (b : CBuf) (vs : List C32) :
    (s.writeC b vs).buf.commit = s.buf.commit := by
  cases b <;> rfl

@[simp] theorem State.writeAu_commit (s : State) (vs : List F32) : (s.writeAu vs).buf.commit = s.buf.commit := rfl

theorem State.commitPower_commit_other (s : State) {p q : PowerBuf} (h : q ≠ p) (bins : List F32) (n : Nat) :
    (s.commitPower p bins n).buf.commit q = s.buf.commit q := by
  cases p <;> cases q
  case wide.narrow => rfl
  case narrow.wide => rfl
  all_goals exact absurd rfl h

theorem keepsFixed_beginStop (s : State) : KeepsFixed s s.beginStop := by
  unfold State.beginStop
  split <;> exact ⟨rfl, rfl, rfl⟩

theorem keepsFixed_underrunOq (s : State) : KeepsFixed s s.underrunOq := by
  unfold State.underrunOq
  split <;> exact ⟨rfl, rfl, rfl⟩

theorem keepsFixed_csrStore (s : State) (r : Csr) (v : Word) : KeepsFixed s (s.csrStore r v) := by
  cases r <;> exact ⟨rfl, rfl, rfl⟩

theorem keepsFixed_illegal (port : Port) : Ensures (illegal port s) (KeepsFixed s) := ensures_next.2 ⟨rfl, rfl, rfl⟩

/-! ### Each command -/

theorem execCsrWrite_keepsFixed (addr : BitVec 12) (v : Word) : Ensures (execCsrWrite addr v s) (KeepsFixed s) := by
  unfold execCsrWrite
  split
  · exact ensures_next.2 ⟨rfl, rfl, rfl⟩
  next r _ =>
    simp only [ensures_ite, ensures_raise, ensures_next]
    exact ⟨fun _ => keepsFixed_illegal _, fun _ => ⟨fun _ => ⟨rfl, rfl, rfl⟩, fun _ => keepsFixed_csrStore s r v⟩⟩

theorem copyBuffer_keepsFixed (src dst : WorkBuf) (n : Nat) : Ensures (copyBuffer src dst n s) (KeepsFixed s) := by
  unfold copyBuffer
  split
  · simp only [ensures_workerDone]
    split <;> simp [KeepsFixed]
  · simp [KeepsFixed]
  · exact keepsFixed_illegal _
  · exact keepsFixed_illegal _

theorem exec_keepsFixed {i : Instr} (hi : ∀ src dst len, i ≠ .specPower src dst len) :
    Ensures (exec i s) (KeepsFixed s) := by
  cases i with
  | specPower src dst len => exact absurd rfl (hi src dst len)
  | qwriteIq =>
    simp only [exec, execQwriteIq]
    split <;> exact ensures_next.2 ⟨rfl, rfl, rfl⟩
  | qwriteOq =>
    unfold exec execQwriteOq
    refine ensures_withLen (keepsFixed_illegal _) fun n => ?_
    dsimp only
    split <;> exact ensures_next.2 ⟨rfl, rfl, rfl⟩
  | qread =>
    unfold exec execQread
    refine ensures_withLen (keepsFixed_illegal _) fun n => ?_
    simp [KeepsFixed]
  | qavail => exact ensures_next.2 ⟨rfl, rfl, rfl⟩
  | qopen => simp [exec, execQopen, KeepsFixed]
  | qclose => simp [exec, execQclose, KeepsFixed]
  | acqStart =>
    unfold exec execAcqStart
    simp only [ensures_ite, ensures_raise, ensures_next]
    exact ⟨fun _ => ⟨rfl, rfl, rfl⟩, fun _ => ⟨fun _ => ⟨rfl, rfl, rfl⟩, fun _ => ⟨rfl, rfl, rfl⟩⟩⟩
  | acqStop => exact ensures_next.2 (keepsFixed_beginStop s)
  | devFault => exact ensures_next.2 (keepsFixed_beginStop (s.setSticky .devfault))
  | csrRead addr =>
    simp only [exec, execCsrRead]
    split <;> exact ensures_next.2 ⟨rfl, rfl, rfl⟩
  | csrWrite addr v => exact execCsrWrite_keepsFixed addr v
  | audPull =>
    unfold exec execAudPull
    simp only [ensures_ite, ensures_next]
    exact ⟨fun _ => ⟨rfl, rfl, rfl⟩, fun _ => ⟨fun _ => ⟨rfl, rfl, rfl⟩, fun _ => keepsFixed_underrunOq s⟩⟩
  | snapRead => simp [exec, execSnapRead, KeepsFixed]
  | bufCopy src dst => exact ensures_withLen (keepsFixed_illegal _) fun n => copyBuffer_keepsFixed src dst n
  | winApply =>
    unfold exec execWinApply
    refine ensures_withLen (keepsFixed_illegal _) fun n => ?_
    simp [KeepsFixed]
  | fftFwd =>
    unfold exec execFftFwd
    refine ensures_withLen (keepsFixed_illegal _) fun n => ?_
    simp [KeepsFixed]
  | decimate0 =>
    unfold exec execDecimate0
    refine ensures_withLen (keepsFixed_illegal _) fun n => ?_
    split <;> simp [KeepsFixed]
  | decimate1 =>
    unfold exec execDecimate1
    refine ensures_withLen (keepsFixed_illegal _) fun n => ?_
    split <;> simp [KeepsFixed]
  | fmDemod =>
    unfold exec execFmDemod
    refine ensures_withLen (keepsFixed_illegal _) fun n => ?_
    split <;> simp [KeepsFixed]
  | lpf =>
    unfold exec execLpf
    refine ensures_withLen (keepsFixed_illegal _) fun n => ?_
    split <;> simp [KeepsFixed]
  | seqTop => simp [exec, execSeqTop, KeepsFixed]
  | seqWait => simp [exec, execSeqWait, KeepsFixed]
  | seqLatch => exact ensures_next.2 ⟨rfl, rfl, rfl⟩
  | seqJshort => simp [exec, execSeqJshort, KeepsFixed]
  | seqEnd => exact ensures_next.2 ⟨rfl, rfl, rfl⟩

/-- SPEC_POWER commits to its own buffer only (43_spectrum R270). -/
theorem execSpecPower_keeps (src : CBuf) (dst : PowerBuf) (len : Len) : Ensures (execSpecPower src dst len s) fun t =>
    t.rom = s.rom ∧ t.cfg = s.cfg ∧ ∀ p, p ≠ dst → t.buf.commit p = s.buf.commit p := by
  refine ensures_withLen (ensures_next.2 ⟨rfl, rfl, fun _ _ => rfl⟩) fun n => ensures_next.2 ⟨?_, ?_, fun p hp => ?_⟩
  · simp
  · simp
  · exact s.commitPower_commit_other hp _ n

/-! ### The other agents -/

theorem runControl_keepsFixed : Ensures (runControl s) (KeepsFixed s) := by
  unfold runControl
  simp only [ensures_ite, ensures_next]
  exact ⟨fun _ => ⟨rfl, rfl, rfl⟩, fun _ => ⟨rfl, rfl, rfl⟩⟩

theorem runSync_keepsFixed (q : QueueSel) (cv pv : Nat) : Ensures (runSync q cv pv s) (KeepsFixed s) := by
  cases q <;> exact ensures_next.2 ⟨rfl, rfl, rfl⟩

/-! ### The ROM and the parameters -/

/-- A change that leaves the ROM and the parameters as they were. -/
def KeepsBuild (s t : State) : Prop := t.rom = s.rom ∧ t.cfg = s.cfg

theorem KeepsFixed.keepsBuild (h : KeepsFixed s t) : KeepsBuild s t := by
  obtain ⟨hrom, hcfg, -⟩ := h
  exact ⟨hrom, hcfg⟩

theorem exec_keepsBuild (i : Instr) : Ensures (exec i s) (KeepsBuild s) := by
  by_cases hi : ∃ src dst len, i = .specPower src dst len
  · obtain ⟨src, dst, len, rfl⟩ := hi
    exact (execSpecPower_keeps src dst len).mono fun t ⟨hrom, hcfg, _⟩ => ⟨hrom, hcfg⟩
  · push Not at hi
    exact (exec_keepsFixed hi).mono fun t ht => ht.keepsBuild

theorem runEvent_keepsBuild (e : Event) : Ensures (runEvent e s) (KeepsBuild s) := by
  have hillegal (port : Port) : Ensures (illegal port s) (KeepsBuild s) :=
    (keepsFixed_illegal port).mono fun t ht => ht.keepsBuild
  cases e with
  | command port w payload =>
    simp only [runEvent, runCommand]
    split
    · exact exec_keepsBuild _
    · exact hillegal _
  | worker =>
    rcases runWorker_cases s with ⟨-, h⟩ | ⟨-, -, h⟩ | ⟨w, -, -, ⟨i, -, h⟩ | ⟨r, -, h⟩⟩ <;> rw [runEvent, h]
    · exact ensures_next.2 ⟨rfl, rfl⟩
    · simp [Ensures]
    · exact exec_keepsBuild i
    · exact hillegal .w
  | control => exact runControl_keepsFixed.mono fun t ht => ht.keepsBuild
  | sync q cv pv => exact (runSync_keepsFixed q cv pv).mono fun t ht => ht.keepsBuild

/-- Settles O55: a step is a turn of an agent or rest, and no turn writes them. -/
theorem romAndParametersNeverChange : Obligations.RomAndParametersNeverChange := by
  intro s t ht
  rcases step_cases s with ⟨e, rest, -, he⟩ | ⟨e, -, -, he⟩ | ⟨-, -, he⟩ <;> rw [he] at ht
  · exact runEvent_keepsBuild (s := s.setSched rest) e t ht
  · exact runEvent_keepsBuild e t ht
  · cases ht
    exact ⟨rfl, rfl⟩

/-! ### The last commit -/

/-- The bins read are the storage's own, whatever else the state holds. -/
theorem readPower_congr {p : PowerBuf} (h : t.powerBins p = s.powerBins p) (n : Nat) :
    t.readPower p n = s.readPower p n := by
  cases p <;> simp only [State.powerBins] at h <;> simp only [State.readPower, h]

/-- A whole snapshot of a valid buffer answers its committed bins (45_ports R318). -/
theorem execSnapRead_whole {p : PowerBuf} (hvalid : s.powerValid p = true) :
    execSnapRead p 0 s = .next (s.respond .s .ok (s.powerLen p) (s.readPower p (s.powerLen p))) := by
  simp [execSnapRead, State.snapCount, hvalid]

/-- A snapshot where the commit still stands answers the bins committed (20_memory R115). -/
theorem execSnapRead_of_commitPower {p : PowerBuf} {bins : List F32} {n : Nat} (hn : bins.length = n)
    (h : t.buf.commit p = (s.commitPower p bins n).buf.commit p) :
    execSnapRead p 0 t = .next (t.respond .s .ok n bins) := by
  subst hn
  obtain ⟨hbins, hlen, hvalid⟩ := (commit_eq_iff p).1 h
  rw [State.powerLen_commitPower] at hlen
  rw [State.powerValid_commitPower] at hvalid
  rw [execSnapRead_whole hvalid, hlen, readPower_congr hbins, State.readPower_commitPower]

/-- Settles O31: only SPEC_POWER commits, and the storage reads back what it committed. -/
theorem snapshotReturnsLastCommit : Obligations.SnapshotReturnsLastCommit := by
  refine ⟨fun i p s t ht hp => (commit_eq_iff p).1 ?_, fun p s t q cv pv ht => (commit_eq_iff p).1 ?_, ?_⟩
  · by_cases hi : ∃ src dst len, i = .specPower src dst len
    · obtain ⟨src, dst, len, rfl⟩ := hi
      obtain ⟨-, -, hother⟩ := execSpecPower_keeps src dst len t ht
      exact hother p fun h => hp src len (by rw [h])
    · push Not at hi
      obtain ⟨-, -, hcommit⟩ := exec_keepsFixed hi t ht
      exact congrFun hcommit p
  · obtain ⟨-, -, hcommit⟩ := ht.elim (runControl_keepsFixed t) (runSync_keepsFixed q cv pv t)
    exact congrFun hcommit p
  · intro src p len s t u hlen ht hbins hulen hvalid
    rw [exec, execSpecPower, withLen_of_le s hlen] at ht
    cases ht
    exact execSnapRead_of_commitPower (s := s) (by simp) ((commit_eq_iff p).2 ⟨hbins, hulen, hvalid⟩)

end Sys2Proof.Machine
end

section
/-! PROOFS. The decoder accepts exactly what the encoder writes (30_encoding R144, R147, R151). Settles O2, O3, O4 and O5. -/

namespace Sys2Proof

open Sys2Proof.Laws.EncodedOpcode (opcode_of_parts opcode_lt engineOperands_lt Len.code_lt CBuf.id_lt WorkBuf.id_lt
  PowerBuf.id_lt PowerBuf.sel_lt QueueSel.bit_lt)

variable {w : Word} {payload : List Word} {i : Instr}

/-! ### Codes and the operands they name -/

@[simp] theorem CBuf.ofId_id (b : CBuf) : CBuf.ofId b.id = some b := by cases b <;> rfl

theorem CBuf.ofId_eq_some {n : Nat} {b : CBuf} : CBuf.ofId n = some b ↔ n = b.id := by
  refine ⟨fun h => ?_, fun h => by rw [h, CBuf.ofId_id]⟩
  unfold CBuf.ofId at h
  split at h <;> cases h <;> rfl

@[simp] theorem WorkBuf.ofId_id (b : WorkBuf) : WorkBuf.ofId b.id = some b := by rcases b with b | _ <;> [cases b <;> rfl; rfl]

theorem WorkBuf.ofId_eq_some {n : Nat} {b : WorkBuf} : WorkBuf.ofId n = some b ↔ n = b.id := by
  refine ⟨fun h => ?_, fun h => by rw [h, WorkBuf.ofId_id]⟩
  unfold WorkBuf.ofId at h
  split at h <;> cases h <;> rfl

@[simp] theorem PowerBuf.ofId_id (b : PowerBuf) : PowerBuf.ofId b.id = some b := by cases b <;> rfl

theorem PowerBuf.ofId_eq_some {n : Nat} {b : PowerBuf} : PowerBuf.ofId n = some b ↔ n = b.id := by
  refine ⟨fun h => ?_, fun h => by rw [h, PowerBuf.ofId_id]⟩
  unfold PowerBuf.ofId at h
  split at h <;> cases h <;> rfl

@[simp] theorem Len.ofField_code (l : Len) : Len.ofField l.code = some l := by cases l <;> rfl

theorem Len.ofField_eq_some {n : Nat} {l : Len} : Len.ofField n = some l ↔ n = l.code := by
  refine ⟨fun h => ?_, fun h => by rw [h, Len.ofField_code]⟩
  unfold Len.ofField at h
  split at h <;> cases h <;> rfl

@[simp] theorem PowerBuf.ofSel_sel (b : PowerBuf) : PowerBuf.ofSel b.sel = b := by cases b <;> rfl

theorem PowerBuf.sel_ofSel {n : Nat} (h : n < 2) : (PowerBuf.ofSel n).sel = n := by
  interval_cases n <;> rfl

@[simp] theorem QueueSel.ofBit_bit (q : QueueSel) : QueueSel.ofBit q.bit = q := by cases q <;> rfl

theorem QueueSel.bit_ofBit {n : Nat} (h : n < 2) : (QueueSel.ofBit n).bit = n := by
  interval_cases n <;> rfl

/-! ### Payloads -/

@[simp] theorem samplesOfWords_wordsOfSamples (block : List C32) : samplesOfWords (wordsOfSamples block) = some block := by
  induction block with
  | nil => rfl
  | cons x xs ih => simp [wordsOfSamples, samplesOfWords, ih]

theorem wordsOfSamples_of_samplesOfWords {block : List C32} (h : samplesOfWords payload = some block) :
    wordsOfSamples block = payload := by
  induction payload using samplesOfWords.induct generalizing block with
  | case1 => cases h; rfl
  | case2 => cases h
  | case3 re im rest ih =>
    obtain ⟨xs, hxs, rfl⟩ := Option.map_eq_some_iff.1 h
    simp [wordsOfSamples, ih hxs]

theorem wordsOfSamples_eq_flatMap (block : List C32) : wordsOfSamples block = block.flatMap fun x => [x.re, x.im] := by
  induction block with
  | nil => rfl
  | cons x xs ih => simp [wordsOfSamples, ih]

theorem wordsOfSamples_length (block : List C32) : (wordsOfSamples block).length = 2 * block.length := by
  simp [wordsOfSamples_eq_flatMap, List.length_flatMap, Nat.mul_comm]

theorem withoutPayload_eq_ok {j : Instr} : withoutPayload payload j = .ok i ↔ payload = [] ∧ i = j := by
  cases payload <;> simp [withoutPayload, eq_comm]

/-! ### A word and its command -/

/-- The word and payload are those of the well-formed command, the word read as OP and operand bits (30_encoding R130). -/
structure Carries (w : Word) (payload : List Word) (i : Instr) : Prop where
  wf       : i.wf = true
  opcode   : opcode w = i.opcode
  operands : field w 0 26 = i.operands
  payload  : payload = encodePayload i

/-- The operand bits of a well-formed command leave OP free (30_encoding R131). -/
theorem operands_lt (h : i.wf = true) : i.operands < 2 ^ 26 := by
  cases i with
  | qwriteIq block | audPull frames =>
    simp only [Instr.wf, countFits, decide_eq_true_eq] at h
    simp only [Instr.operands]
    omega
  | snapRead sel count =>
    simp only [Instr.wf, countFits, decide_eq_true_eq] at h
    have := PowerBuf.sel_lt sel
    simp only [Instr.operands]
    omega
  | seqJshort target =>
    simp only [Instr.wf, targetFits, decide_eq_true_eq] at h
    simp only [Instr.operands]
    omega
  | qwriteOq len =>
    have := Len.code_lt len
    simp only [Instr.operands]
    omega
  | qread dst len =>
    have := Len.code_lt len
    have := CBuf.id_lt dst
    simp only [Instr.operands]
    omega
  | qavail q | qopen q | qclose q =>
    have := QueueSel.bit_lt q
    simp only [Instr.operands]
    omega
  | csrRead addr | csrWrite addr _ =>
    have := addr.isLt
    simp only [Instr.operands]
    omega
  | acqStart | acqStop | devFault | seqTop | seqWait | seqLatch | seqEnd => decide
  | bufCopy src dst len =>
    exact engineOperands_lt len (by have := WorkBuf.id_lt src; omega) (by have := WorkBuf.id_lt dst; omega) (by decide)
  | winApply dst len => exact engineOperands_lt len (by decide) (by have := CBuf.id_lt dst; omega) (by decide)
  | fftFwd buf len =>
    exact engineOperands_lt len (by have := CBuf.id_lt buf; omega) (by have := CBuf.id_lt buf; omega) (by decide)
  | specPower src dst len =>
    exact engineOperands_lt len (by have := CBuf.id_lt src; omega) (by have := PowerBuf.id_lt dst; omega) (by decide)
  | decimate0 src dst len =>
    exact engineOperands_lt len (by have := CBuf.id_lt src; omega) (by have := CBuf.id_lt dst; omega) (by decide)
  | decimate1 len | lpf len => exact engineOperands_lt len (by decide) (by decide) (by decide)
  | fmDemod src len => exact engineOperands_lt len (by have := CBuf.id_lt src; omega) (by decide) (by decide)

theorem carries_iff : Carries w payload i ↔ i.wf = true ∧ encodeWord i = w ∧ encodePayload i = payload := by
  constructor
  · rintro ⟨hwf, hop, hrest, hpay⟩
    refine ⟨hwf, BitVec.eq_of_toNat_eq ?_, hpay.symm⟩
    have := w.isLt
    rw [encodeWord, ← hop, ← hrest, BitVec.toNat_ofNat]
    simp only [opcode, field]
    omega
  · rintro ⟨hwf, rfl, rfl⟩
    have hrest := operands_lt hwf
    have hop := opcode_lt i
    refine ⟨hwf, opcode_of_parts hop hrest, ?_, rfl⟩
    rw [encodeWord, field, BitVec.toNat_ofNat]
    omega

/-! ### What each decoder accepts -/

theorem field_lt (w : Word) (lo len : Nat) : field w lo len < 2 ^ len := Nat.mod_lt _ (Nat.two_pow_pos len)

theorem reject_else_eq_ok {c : Prop} [Decidable c] {r : Reject} {x : Except Reject Instr} :
    (if c then .error r else x) = .ok i ↔ ¬c ∧ x = .ok i := by
  split <;> simp_all

theorem else_reject_eq_ok {c : Prop} [Decidable c] {r : Reject} {x : Except Reject Instr} :
    (if c then x else .error r) = .ok i ↔ c ∧ x = .ok i := by
  split <;> simp_all

theorem decodeBare_eq_ok {j : Instr} : decodeBare w payload j = .ok i ↔ i = j ∧ field w 0 26 = 0 ∧ payload = [] := by
  rw [decodeBare, reject_else_eq_ok, not_not, withoutPayload_eq_ok]
  tauto

theorem decodeQwriteIq_eq_ok : decodeQwriteIq w payload = .ok i ↔
    ∃ block, i = .qwriteIq block ∧ block.length < 2 ^ 24 ∧ field w 0 26 = (Instr.qwriteIq block).operands ∧
      payload = wordsOfSamples block := by
  have hfield (n : Nat) (hn : n < 2 ^ 24) :
      field w 0 26 = 1 * 2 ^ 24 + n ↔ (field w 25 1 = 0 ∧ field w 24 1 = 1) ∧ n = field w 0 24 := by
    simp only [field]
    omega
  rw [decodeQwriteIq, reject_else_eq_ok, not_or, not_not, not_not]
  constructor
  · rintro ⟨hq, h⟩
    split at h
    · cases h
    next block hblock =>
    obtain ⟨hn, h⟩ := else_reject_eq_ok.1 h
    cases h
    have hlt : block.length < 2 ^ 24 := hn ▸ field_lt w 0 24
    exact ⟨block, rfl, hlt, (hfield _ hlt).2 ⟨hq, hn⟩, (wordsOfSamples_of_samplesOfWords hblock).symm⟩
  · rintro ⟨block, rfl, hlt, hop, rfl⟩
    obtain ⟨hq, hn⟩ := (hfield _ hlt).1 hop
    exact ⟨hq, by simp [hn]⟩

theorem decodeQueueSelect_eq_ok {mk : QueueSel → Instr} : decodeQueueSelect w payload mk = .ok i ↔
    ∃ q : QueueSel, i = mk q ∧ field w 0 26 = q.bit * 2 ^ 25 ∧ payload = [] := by
  have hfield (q : QueueSel) : field w 0 26 = q.bit * 2 ^ 25 ↔ field w 0 25 = 0 ∧ field w 25 1 = q.bit := by
    have := QueueSel.bit_lt q
    simp only [field]
    omega
  rw [decodeQueueSelect, reject_else_eq_ok, not_not, withoutPayload_eq_ok]
  constructor
  · rintro ⟨h0, hpay, rfl⟩
    exact ⟨_, rfl, (hfield _).2 ⟨h0, (QueueSel.bit_ofBit (field_lt w 25 1)).symm⟩, hpay⟩
  · rintro ⟨q, rfl, hop, hpay⟩
    obtain ⟨h0, hq⟩ := (hfield q).1 hop
    exact ⟨h0, hpay, by rw [hq, QueueSel.ofBit_bit]⟩

theorem decodeQwriteOq_eq_ok : decodeQwriteOq w payload = .ok i ↔
    ∃ len, i = .qwriteOq len ∧ field w 0 26 = (Instr.qwriteOq len).operands ∧ payload = [] := by
  have hfield (len : Len) : field w 0 26 = (Instr.qwriteOq len).operands ↔
      field w 0 19 = 0 ∧ (field w 25 1 = 1 ∧ field w 24 1 = 0 ∧ field w 21 3 = 3) ∧ field w 19 2 = len.code := by
    have := Len.code_lt len
    simp only [field, Instr.operands]
    omega
  simp only [decodeQwriteOq, reject_else_eq_ok, not_or, not_not]
  constructor
  · rintro ⟨h0, hq, h⟩
    split at h
    · cases h
    next len hlen =>
    obtain ⟨hpay, rfl⟩ := withoutPayload_eq_ok.1 h
    exact ⟨len, rfl, (hfield len).2 ⟨h0, hq, Len.ofField_eq_some.1 hlen⟩, hpay⟩
  · rintro ⟨len, rfl, hop, hpay⟩
    obtain ⟨h0, hq, hlen⟩ := (hfield len).1 hop
    exact ⟨h0, hq, by simp [hlen, withoutPayload_eq_ok, hpay]⟩

theorem decodeQread_eq_ok : decodeQread w payload = .ok i ↔
    ∃ dst len, i = .qread dst len ∧ field w 0 26 = (Instr.qread dst len).operands ∧ payload = [] := by
  have hfield (dst : CBuf) (len : Len) : field w 0 26 = (Instr.qread dst len).operands ↔
      field w 0 19 = 0 ∧ (field w 25 1 = 0 ∧ field w 24 1 = 1) ∧ field w 21 3 = dst.id ∧ field w 19 2 = len.code := by
    have := Len.code_lt len
    have := CBuf.id_lt dst
    simp only [field, Instr.operands]
    omega
  simp only [decodeQread, reject_else_eq_ok, not_or, not_not]
  constructor
  · rintro ⟨h0, hq, h⟩
    split at h
    next dst len hdst hlen =>
      obtain ⟨hpay, rfl⟩ := withoutPayload_eq_ok.1 h
      exact ⟨dst, len, rfl,
        (hfield dst len).2 ⟨h0, hq, CBuf.ofId_eq_some.1 hdst, Len.ofField_eq_some.1 hlen⟩, hpay⟩
    · cases h
  · rintro ⟨dst, len, rfl, hop, hpay⟩
    obtain ⟨h0, hq, hdst, hlen⟩ := (hfield dst len).1 hop
    exact ⟨h0, hq, by simp [hdst, hlen, withoutPayload_eq_ok, hpay]⟩

theorem decodeJump_eq_ok : decodeJump w payload = .ok i ↔
    ∃ target, i = .seqJshort target ∧ targetFits target = true ∧ field w 0 26 = target ∧ payload = [] := by
  have hfield (n : Nat) (hn : targetFits n = true) : field w 0 26 = n ↔ field w 5 21 = 0 ∧ field w 0 5 = n := by
    simp only [targetFits, decide_eq_true_eq] at hn
    simp only [field]
    omega
  rw [decodeJump, reject_else_eq_ok, not_not, else_reject_eq_ok, withoutPayload_eq_ok]
  constructor
  · rintro ⟨h0, hfits, hpay, rfl⟩
    exact ⟨_, rfl, hfits, (hfield _ hfits).2 ⟨h0, rfl⟩, hpay⟩
  · rintro ⟨target, rfl, hfits, hop, hpay⟩
    obtain ⟨h0, rfl⟩ := (hfield _ hfits).1 hop
    exact ⟨h0, hfits, hpay, rfl⟩

/-- The fields of format R (30_encoding R131). -/
theorem field_eq_addr (addr : BitVec 12) :
    field w 0 26 = addr.toNat ↔ field w 12 14 = 0 ∧ BitVec.ofNat 12 (field w 0 12) = addr := by
  have := addr.isLt
  rw [← BitVec.toNat_inj, BitVec.toNat_ofNat]
  simp only [field]
  omega

theorem decodeCsrRead_eq_ok : decodeCsrRead w payload = .ok i ↔
    ∃ addr : BitVec 12, i = .csrRead addr ∧ field w 0 26 = addr.toNat ∧ payload = [] := by
  rw [decodeCsrRead, reject_else_eq_ok, not_not, withoutPayload_eq_ok]
  simp only [field_eq_addr]
  constructor
  · rintro ⟨h0, hpay, rfl⟩
    exact ⟨_, rfl, ⟨h0, rfl⟩, hpay⟩
  · rintro ⟨addr, rfl, ⟨h0, rfl⟩, hpay⟩
    exact ⟨h0, hpay, rfl⟩

theorem decodeCsrWrite_eq_ok : decodeCsrWrite w payload = .ok i ↔
    ∃ (addr : BitVec 12) (v : Word), i = .csrWrite addr v ∧ field w 0 26 = addr.toNat ∧ payload = [v] := by
  unfold decodeCsrWrite
  rw [reject_else_eq_ok, not_not]
  simp only [field_eq_addr]
  constructor
  · rintro ⟨h0, h⟩
    split at h <;> cases h
    exact ⟨_, _, rfl, ⟨h0, rfl⟩, rfl⟩
  · rintro ⟨addr, v, rfl, ⟨h0, rfl⟩, rfl⟩
    exact ⟨h0, rfl⟩

theorem decodeAudPull_eq_ok : decodeAudPull w payload = .ok i ↔
    ∃ frames, i = .audPull frames ∧ countFits frames = true ∧ field w 0 26 = frames ∧ payload = [] := by
  have hfield (n : Nat) : countFits n = true ∧ field w 0 26 = n ↔ field w 24 2 = 0 ∧ field w 0 24 = n := by
    simp only [field, countFits, decide_eq_true_eq]
    omega
  rw [decodeAudPull, reject_else_eq_ok, not_not, withoutPayload_eq_ok]
  constructor
  · rintro ⟨h0, hpay, rfl⟩
    obtain ⟨hfits, hop⟩ := (hfield _).2 ⟨h0, rfl⟩
    exact ⟨_, rfl, hfits, hop, hpay⟩
  · rintro ⟨frames, rfl, hfits, hop, hpay⟩
    obtain ⟨h0, rfl⟩ := (hfield _).1 ⟨hfits, hop⟩
    exact ⟨h0, hpay, rfl⟩

theorem decodeSnapRead_eq_ok : decodeSnapRead w payload = .ok i ↔
    ∃ sel count, i = .snapRead sel count ∧ countFits count = true ∧ field w 0 26 = (Instr.snapRead sel count).operands ∧
      payload = [] := by
  have hfield (sel : PowerBuf) (n : Nat) : countFits n = true ∧ field w 0 26 = (Instr.snapRead sel n).operands ↔
      field w 24 1 = 0 ∧ field w 25 1 = sel.sel ∧ field w 0 24 = n := by
    have := PowerBuf.sel_lt sel
    simp only [field, countFits, Instr.operands, decide_eq_true_eq]
    omega
  rw [decodeSnapRead, reject_else_eq_ok, not_not, withoutPayload_eq_ok]
  constructor
  · rintro ⟨h0, hpay, rfl⟩
    obtain ⟨hfits, hop⟩ := (hfield _ _).2 ⟨h0, (PowerBuf.sel_ofSel (field_lt w 25 1)).symm, rfl⟩
    exact ⟨_, _, rfl, hfits, hop, hpay⟩
  · rintro ⟨sel, count, rfl, hfits, hop, hpay⟩
    obtain ⟨h0, hsel, rfl⟩ := (hfield _ _).1 ⟨hfits, hop⟩
    exact ⟨h0, hpay, by rw [hsel, PowerBuf.ofSel_sel]⟩

/-! ### The engines -/

/-- The fields of format E (30_encoding R131). -/
theorem field_eq_engineOperands {src dst inst : Nat} (len : Len) (hs : src < 8) (hd : dst < 8) (hi : inst < 2) :
    field w 0 26 = engineOperands src dst len inst ↔
      field w 0 17 = 0 ∧ field w 18 2 = len.code ∧ field w 23 3 = src ∧ field w 20 3 = dst ∧ field w 17 1 = inst := by
  have := Len.code_lt len
  simp only [field, engineOperands]
  omega

/-- Every decoder of format E accepts the operands its row selects a command for (30_encoding R145). -/
theorem decodeEngine_eq_ok {select : Nat → Nat → Nat → Len → Option Instr} : decodeEngine w payload select = .ok i ↔
    ∃ src dst inst len, (src < 8 ∧ dst < 8 ∧ inst < 2) ∧ select src dst inst len = some i ∧
      field w 0 26 = engineOperands src dst len inst ∧ payload = [] := by
  rw [decodeEngine, reject_else_eq_ok, not_not]
  constructor
  · rintro ⟨h0, h⟩
    split at h
    · cases h
    next len hlen =>
    split at h
    · cases h
    next j hj =>
    obtain ⟨hpay, rfl⟩ := withoutPayload_eq_ok.1 h
    have hs := field_lt w 23 3
    have hd := field_lt w 20 3
    have hi := field_lt w 17 1
    exact ⟨_, _, _, len, ⟨hs, hd, hi⟩, hj, (field_eq_engineOperands len hs hd hi).2
      ⟨h0, Len.ofField_eq_some.1 hlen, rfl, rfl, rfl⟩, hpay⟩
  · rintro ⟨src, dst, inst, len, ⟨hs, hd, hi⟩, hsel, hop, hpay⟩
    obtain ⟨h0, hlen, rfl, rfl, rfl⟩ := (field_eq_engineOperands len hs hd hi).1 hop
    exact ⟨h0, by simp [hlen, hsel, withoutPayload_eq_ok, hpay]⟩

section Select

variable {src dst inst : Nat} {len : Len}

theorem selectBufCopy_eq_some : selectBufCopy src dst inst len = some i ↔
    ∃ a b, i = .bufCopy a b len ∧ a.isComplex = b.isComplex ∧ src = a.id ∧ dst = b.id ∧ inst = 0 := by
  constructor
  · intro h
    unfold selectBufCopy at h
    split at h
    next a b ha hb =>
      split at h <;> cases h
      next hc => exact ⟨a, b, rfl, hc.2, WorkBuf.ofId_eq_some.1 ha, WorkBuf.ofId_eq_some.1 hb, hc.1⟩
    · cases h
  · rintro ⟨a, b, rfl, hc, rfl, rfl, rfl⟩
    simp [selectBufCopy, hc]

theorem selectWinApply_eq_some : selectWinApply src dst inst len = some i ↔
    ∃ b : CBuf, i = .winApply b len ∧ src = 6 ∧ dst = b.id ∧ inst = 0 := by
  simp only [selectWinApply, Option.ite_none_right_eq_some, Option.map_eq_some_iff, CBuf.ofId_eq_some]
  constructor
  · rintro ⟨⟨hs, hi⟩, b, hb, rfl⟩
    exact ⟨b, rfl, hs, hb, hi⟩
  · rintro ⟨b, rfl, hs, hb, hi⟩
    exact ⟨⟨hs, hi⟩, b, hb, rfl⟩

theorem selectFftFwd_eq_some : selectFftFwd src dst inst len = some i ↔
    ∃ b : CBuf, i = .fftFwd b len ∧ src = b.id ∧ dst = b.id ∧ inst = 0 := by
  simp only [selectFftFwd, Option.ite_none_right_eq_some, Option.map_eq_some_iff, CBuf.ofId_eq_some]
  constructor
  · rintro ⟨⟨rfl, hi⟩, b, hb, rfl⟩
    exact ⟨b, rfl, hb, hb, hi⟩
  · rintro ⟨b, rfl, rfl, rfl, hi⟩
    exact ⟨⟨rfl, hi⟩, b, rfl, rfl⟩

theorem selectSpecPower_eq_some : selectSpecPower src dst inst len = some i ↔
    ∃ (a : CBuf) (b : PowerBuf), i = .specPower a b len ∧ src = a.id ∧ dst = b.id ∧ inst = 0 := by
  constructor
  · intro h
    unfold selectSpecPower at h
    split at h
    next a b ha hb =>
      split at h <;> cases h
      next hi => exact ⟨a, b, rfl, CBuf.ofId_eq_some.1 ha, PowerBuf.ofId_eq_some.1 hb, hi⟩
    · cases h
  · rintro ⟨a, b, rfl, rfl, rfl, rfl⟩
    simp [selectSpecPower]

/-- INST tells the two forms of DECIMATE apart (30_encoding R141). -/
theorem selectDecimate_eq_some (hinst : inst < 2) : selectDecimate src dst inst len = some i ↔
    (∃ a b : CBuf, i = .decimate0 a b len ∧ src = a.id ∧ dst = b.id ∧ inst = 0) ∨
    (i = .decimate1 len ∧ src = 3 ∧ dst = 3 ∧ inst = 1) := by
  constructor
  · intro h
    unfold selectDecimate at h
    split at h
    next hi =>
      split at h <;> cases h
      next a b ha hb => exact .inl ⟨a, b, rfl, CBuf.ofId_eq_some.1 ha, CBuf.ofId_eq_some.1 hb, hi⟩
    next hi =>
      split at h <;> cases h
      next hc => exact .inr ⟨rfl, hc.1, hc.2, by omega⟩
  · rintro (⟨a, b, rfl, rfl, rfl, rfl⟩ | ⟨rfl, rfl, rfl, rfl⟩) <;> simp [selectDecimate]

theorem selectFmDemod_eq_some : selectFmDemod src dst inst len = some i ↔
    ∃ b : CBuf, i = .fmDemod b len ∧ src = b.id ∧ dst = 3 ∧ inst = 0 := by
  simp only [selectFmDemod, Option.ite_none_right_eq_some, Option.map_eq_some_iff, CBuf.ofId_eq_some]
  constructor
  · rintro ⟨⟨hd, hi⟩, b, hb, rfl⟩
    exact ⟨b, rfl, hb, hd, hi⟩
  · rintro ⟨b, rfl, hb, hd, hi⟩
    exact ⟨⟨hd, hi⟩, b, hb, rfl⟩

theorem selectLpf_eq_some : selectLpf src dst inst len = some i ↔ i = .lpf len ∧ src = 3 ∧ dst = 3 ∧ inst = 0 := by
  simp only [selectLpf, Option.ite_none_right_eq_some, Option.some.injEq]
  tauto

end Select

/-! ### The ports -/

theorem carries_of_decodeP (h : decodeP w payload = .ok i) : i.port = .p ∧ Carries w payload i := by
  unfold decodeP at h
  split at h
  next hop =>
    obtain ⟨block, rfl, hlt, hrest, hpay⟩ := decodeQwriteIq_eq_ok.1 h
    exact ⟨rfl, by simpa [Instr.wf, countFits] using hlt, hop, hrest, hpay⟩
  next hop =>
    obtain ⟨rfl, hrest, hpay⟩ := decodeBare_eq_ok.1 h
    exact ⟨rfl, rfl, hop, hrest, hpay⟩
  · exact absurd h (Machine.unaccepted_ne_ok _ _)

theorem carries_of_decodeA (h : decodeA w payload = .ok i) : i.port = .a ∧ Carries w payload i := by
  unfold decodeA at h
  split at h
  next hop =>
    obtain ⟨frames, rfl, hfits, hrest, hpay⟩ := decodeAudPull_eq_ok.1 h
    exact ⟨rfl, hfits, hop, hrest, hpay⟩
  · exact absurd h (Machine.unaccepted_ne_ok _ _)

theorem carries_of_decodeS (h : decodeS w payload = .ok i) : i.port = .s ∧ Carries w payload i := by
  unfold decodeS at h
  split at h
  next hop =>
    obtain ⟨sel, count, rfl, hfits, hrest, hpay⟩ := decodeSnapRead_eq_ok.1 h
    exact ⟨rfl, hfits, hop, hrest, hpay⟩
  · exact absurd h (Machine.unaccepted_ne_ok _ _)

theorem carries_of_decodeH (h : decodeH w payload = .ok i) : i.port = .h ∧ Carries w payload i := by
  unfold decodeH at h
  split at h
  iterate 3
    next hop =>
      obtain ⟨q, rfl, hrest, hpay⟩ := decodeQueueSelect_eq_ok.1 h
      exact ⟨rfl, rfl, hop, hrest, hpay⟩
  iterate 2
    next hop =>
      obtain ⟨rfl, hrest, hpay⟩ := decodeBare_eq_ok.1 h
      exact ⟨rfl, rfl, hop, hrest, hpay⟩
  next hop =>
    obtain ⟨addr, rfl, hrest, hpay⟩ := decodeCsrRead_eq_ok.1 h
    exact ⟨rfl, rfl, hop, hrest, hpay⟩
  next hop =>
    obtain ⟨addr, v, rfl, hrest, hpay⟩ := decodeCsrWrite_eq_ok.1 h
    exact ⟨rfl, rfl, hop, hrest, hpay⟩
  · exact absurd h (Machine.unaccepted_ne_ok _ _)

theorem carries_of_decodeW (h : decodeW w payload = .ok i) : i.port = .w ∧ Carries w payload i := by
  unfold decodeW at h
  split at h
  next hop =>
    obtain ⟨len, rfl, hrest, hpay⟩ := decodeQwriteOq_eq_ok.1 h
    exact ⟨rfl, rfl, hop, hrest, hpay⟩
  next hop =>
    obtain ⟨dst, len, rfl, hrest, hpay⟩ := decodeQread_eq_ok.1 h
    exact ⟨rfl, rfl, hop, hrest, hpay⟩
  next hop =>
    obtain ⟨src, dst, inst, len, -, hsel, hrest, hpay⟩ := decodeEngine_eq_ok.1 h
    obtain ⟨a, b, rfl, hc, rfl, rfl, rfl⟩ := selectBufCopy_eq_some.1 hsel
    exact ⟨rfl, by simpa [Instr.wf] using hc, hop, hrest, hpay⟩
  next hop =>
    obtain ⟨src, dst, inst, len, -, hsel, hrest, hpay⟩ := decodeEngine_eq_ok.1 h
    obtain ⟨b, rfl, rfl, rfl, rfl⟩ := selectWinApply_eq_some.1 hsel
    exact ⟨rfl, rfl, hop, hrest, hpay⟩
  next hop =>
    obtain ⟨src, dst, inst, len, -, hsel, hrest, hpay⟩ := decodeEngine_eq_ok.1 h
    obtain ⟨b, rfl, rfl, rfl, rfl⟩ := selectFftFwd_eq_some.1 hsel
    exact ⟨rfl, rfl, hop, hrest, hpay⟩
  next hop =>
    obtain ⟨src, dst, inst, len, -, hsel, hrest, hpay⟩ := decodeEngine_eq_ok.1 h
    obtain ⟨a, b, rfl, rfl, rfl, rfl⟩ := selectSpecPower_eq_some.1 hsel
    exact ⟨rfl, rfl, hop, hrest, hpay⟩
  next hop =>
    obtain ⟨src, dst, inst, len, ⟨-, -, hi⟩, hsel, hrest, hpay⟩ := decodeEngine_eq_ok.1 h
    obtain ⟨a, b, rfl, rfl, rfl, rfl⟩ | ⟨rfl, rfl, rfl, rfl⟩ := (selectDecimate_eq_some hi).1 hsel
    · exact ⟨rfl, rfl, hop, hrest, hpay⟩
    · exact ⟨rfl, rfl, hop, hrest, hpay⟩
  next hop =>
    obtain ⟨src, dst, inst, len, -, hsel, hrest, hpay⟩ := decodeEngine_eq_ok.1 h
    obtain ⟨b, rfl, rfl, rfl, rfl⟩ := selectFmDemod_eq_some.1 hsel
    exact ⟨rfl, rfl, hop, hrest, hpay⟩
  next hop =>
    obtain ⟨src, dst, inst, len, -, hsel, hrest, hpay⟩ := decodeEngine_eq_ok.1 h
    obtain ⟨rfl, rfl, rfl, rfl⟩ := selectLpf_eq_some.1 hsel
    exact ⟨rfl, rfl, hop, hrest, hpay⟩
  iterate 3
    next hop =>
      obtain ⟨rfl, hrest, hpay⟩ := decodeBare_eq_ok.1 h
      exact ⟨rfl, rfl, hop, hrest, hpay⟩
  next hop =>
    obtain ⟨target, rfl, hfits, hrest, hpay⟩ := decodeJump_eq_ok.1 h
    exact ⟨rfl, hfits, hop, hrest, hpay⟩
  next hop =>
    obtain ⟨rfl, hrest, hpay⟩ := decodeBare_eq_ok.1 h
    exact ⟨rfl, rfl, hop, hrest, hpay⟩
  · exact absurd h (Machine.unaccepted_ne_ok _ _)

theorem carries_of_decode {port : Port} (h : decode port w payload = .ok i) : i.port = port ∧ Carries w payload i := by
  cases port
  case p => exact carries_of_decodeP h
  case w => exact carries_of_decodeW h
  case a => exact carries_of_decodeA h
  case s => exact carries_of_decodeS h
  case h => exact carries_of_decodeH h

/-- The decoder reads back every row of 30_encoding R144. -/
theorem decode_of_carries (h : Carries w payload i) : decode i.port w payload = .ok i := by
  obtain ⟨hwf, hop, hrest, hpay⟩ := h
  cases i <;> simp only [Instr.port, decode, decodeP, decodeW, decodeA, decodeS, decodeH, hop, Instr.opcode]
  case qwriteIq block =>
    simp only [Instr.wf, countFits, decide_eq_true_eq] at hwf
    exact decodeQwriteIq_eq_ok.2 ⟨block, rfl, hwf, hrest, hpay⟩
  case devFault => exact decodeBare_eq_ok.2 ⟨rfl, hrest, hpay⟩
  case audPull frames => exact decodeAudPull_eq_ok.2 ⟨frames, rfl, hwf, hrest, hpay⟩
  case snapRead sel count => exact decodeSnapRead_eq_ok.2 ⟨sel, count, rfl, hwf, hrest, hpay⟩
  case qavail q | qopen q | qclose q => exact decodeQueueSelect_eq_ok.2 ⟨q, rfl, hrest, hpay⟩
  case acqStart | acqStop => exact decodeBare_eq_ok.2 ⟨rfl, hrest, hpay⟩
  case csrRead addr => exact decodeCsrRead_eq_ok.2 ⟨addr, rfl, hrest, hpay⟩
  case csrWrite addr v => exact decodeCsrWrite_eq_ok.2 ⟨addr, v, rfl, hrest, hpay⟩
  case qwriteOq len => exact decodeQwriteOq_eq_ok.2 ⟨len, rfl, hrest, hpay⟩
  case qread dst len => exact decodeQread_eq_ok.2 ⟨dst, len, rfl, hrest, hpay⟩
  case seqTop | seqWait | seqLatch | seqEnd => exact decodeBare_eq_ok.2 ⟨rfl, hrest, hpay⟩
  case seqJshort target => exact decodeJump_eq_ok.2 ⟨target, rfl, hwf, hrest, hpay⟩
  case bufCopy src dst len =>
    have hs := WorkBuf.id_lt src
    have hd := WorkBuf.id_lt dst
    exact decodeEngine_eq_ok.2 ⟨src.id, dst.id, 0, len, by omega,
      selectBufCopy_eq_some.2 ⟨src, dst, rfl, by simpa [Instr.wf] using hwf, rfl, rfl, rfl⟩, hrest, hpay⟩
  case winApply dst len =>
    have hd := CBuf.id_lt dst
    exact decodeEngine_eq_ok.2 ⟨6, dst.id, 0, len, by omega,
      selectWinApply_eq_some.2 ⟨dst, rfl, rfl, rfl, rfl⟩, hrest, hpay⟩
  case fftFwd buf len =>
    have hb := CBuf.id_lt buf
    exact decodeEngine_eq_ok.2 ⟨buf.id, buf.id, 0, len, by omega,
      selectFftFwd_eq_some.2 ⟨buf, rfl, rfl, rfl, rfl⟩, hrest, hpay⟩
  case specPower src dst len =>
    have hs := CBuf.id_lt src
    have hd := PowerBuf.id_lt dst
    exact decodeEngine_eq_ok.2 ⟨src.id, dst.id, 0, len, by omega,
      selectSpecPower_eq_some.2 ⟨src, dst, rfl, rfl, rfl, rfl⟩, hrest, hpay⟩
  case decimate0 src dst len =>
    have hs := CBuf.id_lt src
    have hd := CBuf.id_lt dst
    exact decodeEngine_eq_ok.2 ⟨src.id, dst.id, 0, len, by omega,
      (selectDecimate_eq_some (by decide)).2 (.inl ⟨src, dst, rfl, rfl, rfl, rfl⟩), hrest, hpay⟩
  case decimate1 len =>
    exact decodeEngine_eq_ok.2 ⟨3, 3, 1, len, by decide,
      (selectDecimate_eq_some (by decide)).2 (.inr ⟨rfl, rfl, rfl, rfl⟩), hrest, hpay⟩
  case fmDemod src len =>
    have hs := CBuf.id_lt src
    exact decodeEngine_eq_ok.2 ⟨src.id, 3, 0, len, by omega,
      selectFmDemod_eq_some.2 ⟨src, rfl, rfl, rfl, rfl⟩, hrest, hpay⟩
  case lpf len => exact decodeEngine_eq_ok.2 ⟨3, 3, 0, len, by decide, selectLpf_eq_some.2 ⟨rfl, rfl, rfl, rfl⟩, hrest, hpay⟩

/-- Settles O2: the encoder's word carries its command, and the decoder reads back every command a word carries. -/
theorem decodeOfEncode : Obligations.DecodeOfEncode := fun _ hwf => decode_of_carries (carries_iff.2 ⟨hwf, rfl, rfl⟩)

/-- Settles O3: what a port accepts is a command the word carries, and that is the encoder's word. -/
theorem encodeOfDecode : Obligations.EncodeOfDecode := by
  intro port w payload i h
  obtain ⟨hport, hc⟩ := carries_of_decode h
  obtain ⟨hwf, hw, hpay⟩ := carries_iff.1 hc
  exact ⟨hwf, hport, hw, hpay⟩

/-! ### The payload and the opcode an accepted word fixes -/

theorem toNat_extractLsb'_eq_field (w : Word) (lo len : Nat) : (w.extractLsb' lo len).toNat = field w lo len := by
  simp [field, Nat.shiftRight_eq_div_pow]

theorem extractLsb'_opcode_eq (w : Word) (v : BitVec 6) : w.extractLsb' 26 6 = v ↔ opcode w = v.toNat := by
  rw [← BitVec.toNat_inj, toNat_extractLsb'_eq_field, opcode]

theorem opcode_mem_acceptedOpcodes (i : Instr) : i.opcode ∈ Machine.acceptedOpcodes i.port := by
  cases i <;> simp [Instr.opcode, Instr.port, Machine.acceptedOpcodes]

/-- Settles O5: the word's OP is that of a command of the port, and each command's OP is in its port's set. -/
theorem portsDecodeOnlyTheirOpcodes : Obligations.PortsDecodeOnlyTheirOpcodes := by
  intro port w payload i h
  obtain ⟨rfl, hc⟩ := carries_of_decode h
  rw [toNat_extractLsb'_eq_field, ← opcode, hc.opcode]
  exact ⟨opcode_mem_acceptedOpcodes i, rfl⟩

theorem encodePayload_length (h : i.wf = true) : (encodePayload i).length =
    if i.port = .p ∧ i.opcode = 0x01 then 2 * (i.operands % 2 ^ 24) else if i.opcode = 0x0B then 1 else 0 := by
  cases i with
  | qwriteIq block =>
    simp only [Instr.wf, countFits, decide_eq_true_eq] at h
    simp only [encodePayload, wordsOfSamples_length, Instr.port, Instr.opcode, Instr.operands, and_self, if_true]
    omega
  | _ => rfl

theorem field_count (w : Word) : field w 0 26 % 2 ^ 24 = field w 0 24 := by
  simp only [field]
  omega

/-- Settles O4: the payload is the encoder's, and the word's OP and CNT are the command's. -/
theorem payloadLengthFixedByWord : Obligations.PayloadLengthFixedByWord := by
  intro port w payload i h
  obtain ⟨rfl, hwf, hop, hrest, rfl⟩ := carries_of_decode h
  refine ⟨?_, ?_⟩
  · rw [encodePayload_length hwf, ← hop, ← hrest, field_count, toNat_extractLsb'_eq_field]
    simp only [extractLsb'_opcode_eq]
    rfl
  · rintro block rfl
    exact wordsOfSamples_eq_flatMap block

end Sys2Proof
end

section
/-! PROOFS. The response of a command (30_encoding R160) and the refusal of a length above NMAX (R146). Settles O7 and O32. -/

namespace Sys2Proof.Machine

variable {s t : State}

/-! ### The response -/

theorem Status.code_lt (st : Status) : st.code < 16 := by cases st <;> decide

theorem toNat_responseWord (st : Status) (count : Nat) :
    (responseWord st count).toNat = st.code * 2 ^ 28 + count % 2 ^ 24 := by
  have hcode := st.code_lt
  rw [responseWord, BitVec.toNat_ofNat]
  omega

/-- The change ends with one more response, on the port. -/
def Answers (port : Port) (s t : State) : Prop := ∃ r : Reply, r.port = port ∧ t.replies = r :: s.replies

theorem answers_respond {port : Port} {st : Status} {n : Nat} {d : List Word} (h : t.replies = s.replies) :
    Answers port s (t.respond port st n d) :=
  ⟨_, rfl, congrArg _ h⟩

theorem answers_illegal (port : Port) : Ensures (illegal port s) (Answers port s) :=
  ensures_next.2 (answers_respond rfl)

theorem answers_workerDone {st : Status} {n : Nat} (h : t.replies = s.replies) :
    Ensures (workerDone st n t) (Answers .w s) :=
  ensures_next.2 (answers_respond h)

theorem beginStop_replies (s : State) : s.beginStop.replies = s.replies := by
  unfold State.beginStop
  split <;> rfl

theorem underrunOq_replies (s : State) : s.underrunOq.replies = s.replies := by
  unfold State.underrunOq
  split <;> rfl

theorem csrStore_replies (s : State) (r : Csr) (v : Word) : (s.csrStore r v).replies = s.replies := by
  cases r <;> rfl

theorem execCsrWrite_answers (addr : BitVec 12) (v : Word) : Ensures (execCsrWrite addr v s) (Answers .h s) := by
  unfold execCsrWrite
  split
  · exact ensures_next.2 (answers_respond rfl)
  next r _ =>
    simp only [ensures_ite, ensures_raise, ensures_next]
    exact ⟨fun _ => answers_illegal _, fun _ =>
      ⟨fun _ => answers_respond rfl, fun _ => answers_respond (csrStore_replies s r v)⟩⟩

theorem copyBuffer_answers (src dst : WorkBuf) (n : Nat) : Ensures (copyBuffer src dst n s) (Answers .w s) := by
  unfold copyBuffer
  split
  · refine answers_workerDone ?_
    split <;> simp
  · exact answers_workerDone rfl
  · exact answers_illegal .w
  · exact answers_illegal .w

/-- Every command but SEQ_WAIT answers once, on its own port (30_encoding R160). -/
theorem exec_answers {i : Instr} (hi : i ≠ .seqWait) : Ensures (exec i s) (Answers i.port s) := by
  cases i with
  | seqWait => exact absurd rfl hi
  | qwriteIq =>
    simp only [exec, execQwriteIq, ensures_next]
    refine answers_respond ?_
    split <;> rfl
  | qwriteOq =>
    unfold exec execQwriteOq
    refine ensures_withLen (answers_illegal .w) fun n => answers_workerDone ?_
    split <;> rfl
  | qread =>
    unfold exec execQread
    exact ensures_withLen (answers_illegal .w) fun n => answers_workerDone (by simp)
  | qavail => exact ensures_next.2 (answers_respond rfl)
  | qopen =>
    simp only [exec, execQopen, ensures_ite, ensures_next, ensures_raise]
    exact ⟨fun _ => answers_respond (by simp), fun _ => answers_respond rfl⟩
  | qclose => exact ensures_next.2 (answers_respond (by simp))
  | acqStart =>
    simp only [exec, execAcqStart, ensures_ite, ensures_next, ensures_raise]
    exact ⟨fun _ => answers_respond rfl, fun _ =>
      ⟨fun _ => answers_respond rfl, fun _ => answers_respond rfl⟩⟩
  | acqStop => exact ensures_next.2 (answers_respond (beginStop_replies s))
  | devFault => exact ensures_next.2 (answers_respond (beginStop_replies (s.setSticky .devfault)))
  | csrRead =>
    simp only [exec, execCsrRead]
    split <;> exact ensures_next.2 (answers_respond rfl)
  | csrWrite addr v => exact execCsrWrite_answers addr v
  | audPull =>
    simp only [exec, execAudPull, ensures_ite, ensures_next]
    exact ⟨fun _ => answers_respond rfl, fun _ =>
      ⟨fun _ => answers_respond rfl, fun _ => answers_respond (underrunOq_replies s)⟩⟩
  | snapRead =>
    simp only [exec, execSnapRead, ensures_ite, ensures_next, ensures_raise, ensures_addrError]
    exact ⟨fun _ => answers_respond rfl, fun _ =>
      ⟨fun _ => answers_respond rfl, fun _ => answers_respond rfl⟩⟩
  | bufCopy src dst => exact ensures_withLen (answers_illegal .w) fun n => copyBuffer_answers src dst n
  | winApply =>
    unfold exec execWinApply
    refine ensures_withLen (answers_illegal .w) fun n => ?_
    simp only [ensures_ite, ensures_abandonCycle]
    exact ⟨fun _ => ⟨fun _ => answers_respond rfl, fun _ => answers_workerDone (by simp)⟩, fun _ =>
      answers_workerDone rfl⟩
  | fftFwd =>
    unfold exec execFftFwd
    refine ensures_withLen (answers_illegal .w) fun n => ?_
    simp only [ensures_ite, ensures_abandonCycle]
    exact ⟨fun _ => answers_workerDone (by simp), fun _ => answers_respond rfl⟩
  | specPower =>
    unfold exec execSpecPower
    exact ensures_withLen (answers_illegal .w) fun n => answers_workerDone (by simp)
  | decimate0 | decimate1 | fmDemod | lpf =>
    simp only [exec, execDecimate0, execDecimate1, execFmDemod, execLpf]
    refine ensures_withLen (answers_illegal .w) fun n => ?_
    split
    · exact ensures_useAfterTeardown
    · exact answers_workerDone (by simp)
  | seqTop =>
    simp only [exec, execSeqTop, ensures_ite, ensures_next]
    exact ⟨fun _ => answers_respond rfl, fun _ => answers_workerDone rfl⟩
  | seqLatch => exact answers_workerDone rfl
  | seqJshort =>
    simp only [exec, execSeqJshort, ensures_ite, ensures_next]
    exact ⟨fun _ => answers_respond rfl, fun _ => answers_workerDone rfl⟩
  | seqEnd => exact ensures_next.2 (answers_respond rfl)

theorem execSeqWait_answers :
    Ensures (execSeqWait s) fun t => Answers .w s t ∨ (waitPasses s = false ∧ t = s) := by
  simp only [execSeqWait, ensures_ite, ensures_next, ensures_workerDone, Bool.not_eq_true]
  exact ⟨fun _ => .inl (answers_respond rfl), fun h => .inr ⟨h, trivial⟩⟩

/-- Settles O7: the fields of the response word, and the response of every command. -/
theorem exactlyOneResponsePerCommand : Obligations.ExactlyOneResponsePerCommand := by
  constructor
  · intro st count hcount
    have hcode := st.code_lt
    refine ⟨?_, ?_, ?_⟩
    · rw [← BitVec.toNat_inj, toNat_extractLsb'_eq_field, field, toNat_responseWord]
      change _ = 0
      omega
    · rw [toNat_extractLsb'_eq_field, field, toNat_responseWord]
      omega
    · rw [toNat_extractLsb'_eq_field, field, toNat_responseWord]
      trans st.code
      · omega
      · cases st <;> rfl
  · intro i s t ht
    by_cases hi : i = .seqWait
    · subst hi
      exact (execSeqWait_answers t ht).imp id fun ⟨hw, h⟩ => ⟨rfl, hw, h⟩
    · exact .inl (exec_answers hi t ht)

/-! ### A length above NMAX -/

/-- Settles O32: every micro-operation with a length checks it first, and `withLen` refuses it. -/
theorem oversizeLengthRefused : Obligations.OversizeLengthRefused := by
  intro s len i hlen hi
  rcases hi with rfl | ⟨b, rfl⟩ | ⟨a, b, rfl⟩ | ⟨b, rfl⟩ | ⟨b, rfl⟩ | ⟨a, b, rfl⟩ | ⟨a, b, rfl⟩ | rfl | ⟨b, rfl⟩ | rfl <;>
    simp only [exec, execQwriteOq, execQread, execBufCopy, execWinApply, execFftFwd, execSpecPower, execDecimate0,
      execDecimate1, execFmDemod, execLpf, withLen_of_gt s hlen] <;>
    rfl

end Sys2Proof.Machine
end

section
/-! PROOFS. A table's word comes back from its bytes (20_memory R103), and the word placed is the next turn's. Settles O9. -/

namespace Sys2Proof.Machine

theorem wordsOfBytes_bytesOfWord (w : Word) (bytes : List Byte) :
    wordsOfBytes (bytesOfWord w ++ bytes) = (wordsOfBytes bytes).map (w :: ·) := by
  have hw : BitVec.ofNat 32 ((BitVec.ofNat 8 (field w 0 8)).toNat + (BitVec.ofNat 8 (field w 8 8)).toNat * 2 ^ 8 +
      (BitVec.ofNat 8 (field w 16 8)).toNat * 2 ^ 16 + (BitVec.ofNat 8 (field w 24 8)).toNat * 2 ^ 24) = w := by
    have := w.isLt
    apply BitVec.eq_of_toNat_eq
    simp only [BitVec.toNat_ofNat, field]
    omega
  simp only [bytesOfWord, List.cons_append, List.nil_append, wordsOfBytes, hw]

/-- The words come back from their bytes (20_memory R103). -/
theorem wordsOfBytes_bytesOfWords (ws : List Word) : wordsOfBytes (bytesOfWords ws) = some ws := by
  induction ws with
  | nil => rfl
  | cons w ws ih => rw [bytesOfWords, wordsOfBytes_bytesOfWord, ih, Option.map_some]

theorem decode_of_decodeTableWord {nbits w : Nat} {i : Instr} (h : decodeTableWord nbits w = some i) :
    decode (portOf (tableWords nbits w).1 (tableWords nbits w).2) (tableWords nbits w).1 (tableWords nbits w).2 = .ok i := by
  simp only [decodeTableWord, decodeBytes, wordsOfBytes_bytesOfWords] at h
  split at h <;> cases h
  assumption

theorem exists_portOfExt_eq {port : Port} (h : port ≠ .w) : ∃ e, portOfExt e = port := by
  cases port
  case w => exact absurd rfl h
  case p => exact ⟨.p, rfl⟩
  case a => exact ⟨.a, rfl⟩
  case s => exact ⟨.s, rfl⟩
  case h => exact ⟨.h, rfl⟩

theorem placeWord_of_ext {nbits w : Nat} {port : ExtPort}
    (h : portOf (tableWords nbits w).1 (tableWords nbits w).2 = portOfExt port) (s : State) :
    placeWord s nbits w = scheduleCommand port (tableWords nbits w).1 (tableWords nbits w).2 s := by
  cases port <;> simp only [placeWord, h, portOfExt]

theorem placeWord_of_w {nbits w : Nat} (h : portOf (tableWords nbits w).1 (tableWords nbits w).2 = .w) (s : State) :
    placeWord s nbits w = scheduleMicro (tableWords nbits w).1 s := by
  simp only [placeWord, h]

/-- Placed on an external port, the command runs in the state as it was. -/
theorem step_scheduleCommand {port : ExtPort} {w : Word} {payload : List Word} {i : Instr}
    (h : decode (portOfExt port) w payload = .ok i) (s : State) : step (scheduleCommand port w payload s) = exec i s :=
  calc step (scheduleCommand port w payload s)
    _ = runEvent (.command port w payload) s := step_of_sched rfl
    _ = exec i s := runCommand_of_ok h

theorem getElem?_romWith (rom : List Word) (upc : Nat) (w : Word) : (romWith rom upc w)[upc]? = some w :=
  List.getElem?_set_self (by simp; omega)

/-- Placed in the ROM at upc, the micro-operation runs as the ACTIVE worker's. -/
theorem step_scheduleMicro {w : Word} {i : Instr} (h : decode .w w [] = .ok i) (s : State) :
    step (scheduleMicro w s) =
      exec i { s with rom := romWith s.rom s.seq.upc w, seq := { s.seq with wstate := .active } } :=
  (step_of_sched (e := .worker) rfl).trans (runWorker_of_ok (w := w) rfl (getElem?_romWith s.rom s.seq.upc w) h)

theorem encodePayload_of_port_w {i : Instr} (h : i.port = .w) : encodePayload i = [] := by
  cases i with
  | qwriteIq | csrWrite => cases h
  | _ => rfl

/-- Settles O9: the bytes carry the word to the port that accepts it, and each placing makes it the next turn's. -/
theorem placedWordRunsNext : Obligations.PlacedWordRunsNext := by
  intro s nbits w i hi
  have hd := decode_of_decodeTableWord hi
  obtain ⟨-, hport, hword, hpay⟩ := encodeOfDecode _ _ _ _ hd
  refine ⟨fun hext => ?_, fun hw => ⟨romWith s.rom s.seq.upc (tableWords nbits w).1, ?_, ?_⟩⟩
  · obtain ⟨e, he⟩ := exists_portOfExt_eq hext
    have hplaced := he.trans hport
    rw [← hplaced] at hd
    rw [State.withFetchWord, placeWord_of_ext hplaced.symm]
    exact step_scheduleCommand hd s
  · rw [hword]
    exact getElem?_romWith ..
  · rw [← hport, hw, ← hpay, encodePayload_of_port_w hw] at hd
    rw [State.withFetchWord, placeWord_of_w (hport.symm.trans hw)]
    exact step_scheduleMicro hd s

end Sys2Proof.Machine
end

section
/-! PROOFS. What an open Sample Queue makes of a QueueWrite and a QueueRead (40_queue R172, R181), and the commands that run
them or open and close a queue. Settles O10, O11, O13, O14, O15 and O16. -/

namespace Sys2Proof.Machine

/-! ### QueueWrite and QueueRead on an open queue -/

section Open

variable {α : Type} {free : Nat → α} {view : QueueView} {cap : Nat} {q : Queue α}

theorem queueWrite_open (data : List α) (h : q.isOpen = true) :
    queueWrite view cap q data =
      { status := if min data.length q.pv < data.length then .qfull else .ok
        accepted := min data.length q.pv
        queue := { q with
          buf := ringWrite cap q.buf q.wr (data.take (min data.length q.pv))
          wr := (q.wr + min data.length q.pv) % cap
          avail := q.avail + min data.length q.pv
          pv := q.pv - min data.length q.pv
          cv := if view = .exact then q.avail + min data.length q.pv else q.cv } } :=
  if_pos h

theorem queueRead_open (max : Nat) (h : q.isOpen = true) :
    queueRead free view cap q max =
      { status := .ok
        out := ringRead free cap q.buf q.rd (min max q.cv)
        queue := { q with
          rd := (q.rd + min max q.cv) % cap
          avail := q.avail - min max q.cv
          cv := q.cv - min max q.cv
          pv := if view = .exact then cap - (q.avail - min max q.cv) else q.pv } } :=
  if_pos h

theorem queueWrite_accepted_open (data : List α) (h : q.isOpen = true) :
    (queueWrite view cap q data).accepted = min data.length q.pv := by rw [queueWrite_open data h]

theorem queueWrite_buf_open (data : List α) (h : q.isOpen = true) :
    (queueWrite view cap q data).queue.buf = ringWrite cap q.buf q.wr (data.take (min data.length q.pv)) := by
  rw [queueWrite_open data h]

theorem queueRead_out_length_open (max : Nat) (h : q.isOpen = true) :
    (queueRead free view cap q max).out.length = min max q.cv := by
  rw [queueRead_open max h, ringRead_length]

/-- The accepted samples stand from the write cursor on. -/
theorem QueueInv.read_queueWrite_accepted (hq : QueueInv view cap q) (data : List α) (h : q.isOpen = true) :
    ∀ i, i < min data.length q.pv → (queueWrite view cap q data).queue.buf.read ((q.wr + i) % cap) = data[i]? := by
  intro i hi
  have hpv := hq.pvLe
  rw [queueWrite_buf_open data h, read_ringWrite_inside cap q.buf q.wr i _ (by simp; omega) (by simp; omega),
    List.getElem_take, List.getElem?_eq_getElem]

/-- A write touches no other cell than those of the accepted samples. -/
theorem read_queueWrite_outside (data : List α) (h : q.isOpen = true) :
    ∀ k, (∀ i, i < min data.length q.pv → (q.wr + i) % cap ≠ k) →
      (queueWrite view cap q data).queue.buf.read k = q.buf.read k := by
  intro k hk
  rw [queueWrite_buf_open data h]
  exact read_ringWrite_outside cap q.buf q.wr k _ fun j hj => hk j (by simp at hj; omega)

/-- What a read returns are the first of the samples held. -/
theorem QueueInv.queueRead_out_eq_take (hq : QueueInv view cap q) (max : Nat) :
    (queueRead free view cap q max).out = (q.items free cap).take (queueRead free view cap q max).out.length := by
  rw [hq.items_read free max, List.take_left]

end Open

/-- Settles O10: the ring's cells by `read_queueWrite_accepted` and `read_queueWrite_outside`, the samples held by `items_write`. -/
theorem queueWriteAppendsAcceptedPrefix : Obligations.QueueWriteAppendsAcceptedPrefix := by
  intro α free view cap q data hq
  refine ⟨fun hclosed => ?_, fun hopen => ?_⟩
  · rw [queueWrite_closed view cap data hclosed]
    exact ⟨rfl, rfl, rfl⟩
  · have hitems := hq.items_write free data
    rw [queueWrite_accepted_open data hopen] at hitems
    have hinside := hq.read_queueWrite_accepted data hopen
    have houtside := read_queueWrite_outside (view := view) (cap := cap) data hopen
    rw [queueWrite_open data hopen] at hitems hinside houtside ⊢
    exact ⟨rfl, rfl, hitems, hinside, houtside, rfl, rfl, rfl, hopen, rfl, rfl⟩

/-- Settles O11: a read splits the samples held where its length says. -/
theorem queueReadRemovesOldest : Obligations.QueueReadRemovesOldest := by
  intro α free view cap q max hq
  refine ⟨fun hclosed => ?_, fun hopen => ?_⟩
  · rw [queueRead_closed free view cap max hclosed]
    exact ⟨rfl, rfl, rfl⟩
  · have hlen := queueRead_out_length_open (free := free) (view := view) (cap := cap) max hopen
    have htake := hq.queueRead_out_eq_take (free := free) max
    have hdrop := hq.items_read_eq_drop (free := free) max
    have hheld : min max q.cv ≤ q.avail := (Nat.min_le_right ..).trans hq.cvLe
    rw [hlen] at htake hdrop
    rw [queueRead_open max hopen] at hlen htake hdrop ⊢
    exact ⟨rfl, htake, hdrop, hlen, Nat.min_le_left .., hheld, rfl, rfl, rfl, rfl, hopen, rfl, rfl⟩

/-! ### The commands that move samples -/

/-- QFULL at IQ or not: only the registers differ (40_queue R176). -/
theorem ite_countDropIn (c : Prop) [Decidable c] (s : State) (n : Nat) :
    (if c then s.countDropIn n else s) = s.setCsr (if c then (s.countDropIn n).csr else s.csr) := by
  split <;> rfl

/-- QFULL at OQ or not: only the registers differ (40_queue R177). -/
theorem ite_countDropOut (c : Prop) [Decidable c] (s : State) (n : Nat) :
    (if c then s.countDropOut n else s) = s.setCsr (if c then (s.countDropOut n).csr else s.csr) := by
  split <;> rfl

/-- Settles O13: QFULL or not, the command is one QueueWrite on IQ and a change of the registers. -/
theorem qwriteIqEffect : Obligations.QwriteIqEffect := by
  intro block s
  simp only [exec, execQwriteIq, ite_countDropIn]
  rfl

/-- A block read has the values its elements hold. -/
theorem Memory.readBlock_getElem?_of_read {α : Type} (free : Nat → α) {m : Memory α} {i n k : Nat} {v : α} (hk : k < n)
    (h : m.read (i + k) = some v) : (m.readBlock free i n)[k]? = some v := by
  simp [Memory.readBlock, hk, h]

theorem State.readAu_getElem?_of_read {s : State} {n k : Nat} {v : F32} (hk : k < n) (h : s.buf.au.read k = some v) :
    (s.readAu n)[k]? = some v :=
  Memory.readBlock_getElem?_of_read _ hk (by rwa [Nat.zero_add])

/-- Settles O14: the data written are AU's first elements, as `readAu` reads them. -/
theorem qwriteOqEffect : Obligations.QwriteOqEffect := by
  intro len s hlen
  refine ⟨s.readAu (s.len len), s.readAu_length _, fun k v => State.readAu_getElem?_of_read, ?_⟩
  simp only [exec, execQwriteOq, withLen_of_le s hlen, ite_countDropOut]
  rfl

/-- Settles O15: the samples returned are written from the buffer's element 0 on. -/
theorem qreadEffect : Obligations.QreadEffect := by
  intro dst len s hlen
  refine ⟨(s.cbuf dst).writeBlock 0 (s.readIq (s.len len)).out, ?_, fun k hk => ?_, fun k hk => ?_⟩
  · simp only [exec, execQread, withLen_of_le s hlen]
    cases dst <;> rfl
  · exact (Memory.read_writeBlock_zero _ k _ hk).trans (List.getElem?_eq_getElem hk).symm
  · exact Memory.read_writeBlock_outside _ 0 k _ (.inr (by rwa [Nat.zero_add]))

/-! ### The host's commands -/

theorem execQopen_of_running {s : State} (q : QueueSel) (h : s.ses.sess = .running) :
    execQopen q s = .next ((s.setOpen q true).respond .h .ok 0 []) := if_pos h

theorem execQopen_of_not_running {s : State} (q : QueueSel) (h : s.ses.sess ≠ .running) :
    execQopen q s = .next (s.respond .h .busy 0 []) := if_neg h

theorem getLsbD_ofNat_of_div_mod {n i : Nat} {b : Bool} (hi : i < 32) (h : n / 2 ^ i % 2 = b.toNat) :
    (BitVec.ofNat 32 n).getLsbD i = b := by
  rw [BitVec.getLsbD_ofNat, Nat.testBit_eq_decide_div_mod_eq, h]
  cases b <;> simp [hi]

/-- Bits 3 and 4 of STATUS are the queues' open flags (10_state R53): the bits below them are single bits. -/
theorem statusWord_isOpen (s : State) :
    (statusWord s).getLsbD 3 = s.iq.isOpen ∧ (statusWord s).getLsbD 4 = s.oq.isOpen := by
  have hrunning := Bool.toNat_le s.isRunning
  have hstopping := Bool.toNat_le (s.ses.sess == .stopping)
  have hactive := Bool.toNat_le (s.seq.wstate == .active)
  have hiq := Bool.toNat_le s.iq.isOpen
  have hoq := Bool.toNat_le s.oq.isOpen
  exact ⟨getLsbD_ofNat_of_div_mod (by decide) (by omega), getLsbD_ofNat_of_div_mod (by decide) (by omega)⟩

/-- Settles O16: each command by its case, STATUS by `statusWord_isOpen`. -/
theorem queueHostCommands : Obligations.QueueHostCommands := by
  intro s
  refine ⟨rfl, rfl, fun q hses => execQopen_of_not_running q hses, fun hses => ⟨?_, ?_⟩, rfl, rfl, statusWord_isOpen s⟩
  · exact execQopen_of_running .iq hses
  · exact execQopen_of_running .oq hses

end Sys2Proof.Machine
end

section
/-! PROOFS. What a micro-operation does where its conditions hold, an equation each, and when one faults. Settles O1, O33, O34, O35
and O36. -/

namespace Sys2Proof.Machine

variable {s : State} {len : Len}

/-- Settles O1: on port W by `decode_microprogram`, each other word by evaluating the decoder on it. -/
theorem tableWordsDecode : Obligations.TableWordsDecode :=
  ⟨rfl, congrArg (List.map Except.toOption) decode_microprogram, rfl, rfl, rfl, rfl, rfl, rfl, rfl, rfl, rfl, rfl, rfl⟩

/-! ### The sequencer -/

theorem execSeqTop_of_continue (h : s.ses.stopReq = false) : exec .seqTop s = workerDone .ok 0 s.forgetWork := by
  simp only [exec, execSeqTop, h, Bool.false_eq_true, if_false]

theorem execSeqWait_of_passes (h : waitPasses s = true) : exec .seqWait s = workerDone .ok 0 s := by
  simp only [exec, execSeqWait, h, if_true]

theorem execSeqJshort_of_full {target : Nat} (h : s.seq.short = false) :
    exec (.seqJshort target) s = workerDone .ok 0 s := by
  simp only [exec, execSeqJshort, h, Bool.false_eq_true, if_false]

/-- Settles O34: the stop signal, SEQ_WAIT's condition and `short` each choose between two ends of their command. -/
theorem sequencerControl : Obligations.SequencerControl := by
  intro s
  refine ⟨?_, fun h => execSeqWait_of_passes ?_, fun hstop hopen hcv => ?_, fun target => ?_, rfl⟩
  · simp only [exec, execSeqTop]
    split <;> rfl
  · simpa [waitPasses, or_assoc] using h
  · have hhold : waitPasses s = false := by simpa [waitPasses, hstop, hopen] using hcv
    simp only [exec, execSeqWait, hhold, Bool.false_eq_true, if_false]
  · simp only [exec, execSeqJshort]
    split <;> rfl

theorem ratioOf_num_mul (num den : Nat) : (ratioOf num den).num * den = num * (ratioOf num den).den :=
  calc num / Nat.gcd num den * den
      = num * den / Nat.gcd num den := Nat.div_mul_right_comm (Nat.gcd_dvd_left num den) den
    _ = num * (den / Nat.gcd num den) := Nat.mul_div_assoc num (Nat.gcd_dvd_right num den)

theorem coprime_ratioOf (num : Nat) {den : Nat} (hden : 0 < den) :
    Nat.Coprime (ratioOf num den).num (ratioOf num den).den :=
  Nat.coprime_div_gcd_div_gcd (Nat.gcd_pos_of_pos_right num hden)

/-- The latches and the offsets as SEQ_LATCH leaves them (41_worker R216). -/
def State.latch (s : State) : State :=
  { s with
    seq := { s.seq with latWin := s.csr.winEn, latUo := s.csr.userOffset }
    csr := { s.csr with
      wbOffset := numOffset s.csr.gainConst (ratioOf s.ses.sN 2) s.csr.userOffset
      nbOffset := numOffset s.csr.gainConst (ratioOf s.ses.sN (2 * s.ses.sD)) s.csr.userOffset } }

theorem execSeqLatch_eq : exec .seqLatch s = workerDone .ok 0 s.latch := rfl

/-- Settles O35: both rationals are `ratioOf`'s, in lowest terms where the denominator is positive. -/
theorem seqLatchEffect : Obligations.SeqLatchEffect := fun s =>
  ⟨ratioOf s.ses.sN 2, ratioOf s.ses.sN (2 * s.ses.sD), execSeqLatch_eq, ratioOf_num_mul _ _, coprime_ratioOf _ (by decide),
    fun hD => ⟨ratioOf_num_mul _ _, coprime_ratioOf _ (by omega)⟩⟩

/-! ### BUF_COPY -/

theorem execBufCopy_of_ne {a b : CBuf} {x : List C32} (hlen : s.len len ≤ s.cfg.nmax) (hab : a ≠ b)
    (hx : s.readC a (s.len len) = x) :
    exec (.bufCopy (.complex a) (.complex b) len) s = workerDone .ok 0 (s.writeC b x) := by
  simp only [exec, execBufCopy, withLen_of_le s hlen, copyBuffer, if_neg hab, hx]

theorem execBufCopy_self (b : WorkBuf) (hlen : s.len len ≤ s.cfg.nmax) :
    exec (.bufCopy b b len) s = workerDone .ok 0 s := by
  simp only [exec, execBufCopy, withLen_of_le s hlen]
  cases b
  case complex c => simp only [copyBuffer, if_true]
  case au => rfl

theorem State.readC_getElem?_of_read {b : CBuf} {n k : Nat} {v : C32} (hk : k < n)
    (h : (s.cbuf b).read k = some v) : (s.readC b n)[k]? = some v :=
  Memory.readBlock_getElem?_of_read _ hk (by rwa [Nat.zero_add])

/-- Settles O36: the copy is one block write of what `readC` reads. -/
theorem bufCopyEffect : Obligations.BufCopyEffect := by
  intro len s hlen
  refine ⟨fun a b hab => ⟨(s.cbuf b).writeBlock 0 (s.readC a (s.len len)), ?_, fun k v hk hv => ?_, fun k hk => ?_⟩,
    fun b => execBufCopy_self b hlen⟩
  · rw [execBufCopy_of_ne hlen hab rfl]
    cases b <;> rfl
  · rw [Memory.read_writeBlock_zero _ k _ (by simpa using hk), ← List.getElem?_eq_getElem]
    exact State.readC_getElem?_of_read hk hv
  · exact Memory.read_writeBlock_outside _ 0 k _ (.inr (by simpa using hk))

/-! ### The engines and the queues -/

theorem execWinApply_of_winLen {dst : CBuf} {x : List C32} (hlen : s.len len ≤ s.cfg.nmax)
    (hwin : s.buf.winLen = s.len len) (hx : s.readC dst (s.len len) = x) :
    exec (.winApply dst len) s = workerDone .ok 0
      (if s.seq.latWin then s.writeC dst (List.zipWith windowSample x (s.readWin (s.len len))) else s) := by
  simp only [exec, execWinApply, withLen_of_le s hlen, hwin, ne_eq, not_true_eq_false, if_false, hx]
  split <;> rfl

theorem execFftFwd_of_supported {b : CBuf} {x : List C32} (hlen : supported s.cfg.nmax (s.len len) = true)
    (hx : s.readC b (s.len len) = x) : exec (.fftFwd b len) s = workerDone .ok 0 (s.writeC b (numDft x)) := by
  simp only [exec, execFftFwd, withLen_of_le s ((supported_iff _ _).1 hlen).2.2, hlen, if_true, hx]

theorem execSpecPower_of_le {b : CBuf} {p : PowerBuf} {x : List C32} (hlen : s.len len ≤ s.cfg.nmax)
    (hx : s.readC b (s.len len) = x) :
    exec (.specPower b p len) s =
      workerDone .ok 0 (s.commitPower p (x.map (binDb (s.powerOffset p))) (s.len len)) := by
  simp only [exec, execSpecPower, withLen_of_le s hlen, hx]

theorem execDecimate0_of_present {a b : CBuf} {d : DecState C32} {x : List C32} {y : List C32 × DecState C32}
    (hlen : s.len len ≤ s.cfg.nmax) (hd : s.dsp.dec0 = some d) (hx : s.readC a (s.len len) = x) (hy : s.dec0Run d x = y) :
    exec (.decimate0 a b len) s = workerDone .ok 0 ((s.setDsp { s.dsp with dec0 := some y.2 }).writeC b y.1) := by
  simp only [exec, execDecimate0, withLen_of_le s hlen, hd, hx, hy]

theorem execDecimate1_of_present {d : DecState F32} {x : List F32} {y : List F32 × DecState F32}
    (hlen : s.len len ≤ s.cfg.nmax) (hd : s.dsp.dec1 = some d) (hx : s.readAu (s.len len) = x) (hy : s.dec1Run d x = y) :
    exec (.decimate1 len) s = workerDone .ok 0 ((s.setDsp { s.dsp with dec1 := some y.2 }).writeAu y.1) := by
  simp only [exec, execDecimate1, withLen_of_le s hlen, hd, hx, hy]

theorem execFmDemod_of_present {a : CBuf} {prev : C32} {x : List C32} {y : List F32 × C32}
    (hlen : s.len len ≤ s.cfg.nmax) (hd : s.dsp.fm = some prev) (hx : s.readC a (s.len len) = x)
    (hy : demodulate s.cfg.fmGain prev x = y) :
    exec (.fmDemod a len) s = workerDone .ok 0 ((s.setDsp { s.dsp with fm := some y.2 }).writeAu y.1) := by
  simp only [exec, execFmDemod, withLen_of_le s hlen, hd, hx, hy]

theorem execLpf_of_present {hist x : List F32} {y : List F32 × List F32} (hlen : s.len len ≤ s.cfg.nmax)
    (hd : s.dsp.lpf = some hist) (hx : s.readAu (s.len len) = x) (hy : lowPass s.cfg.h2 hist x = y) :
    exec (.lpf len) s = workerDone .ok 0 ((s.setDsp { s.dsp with lpf := some y.2 }).writeAu y.1) := by
  simp only [exec, execLpf, withLen_of_le s hlen, hd, hx, hy]

theorem execQread_of_le {dst : CBuf} {o : ReadResult C32} (hlen : s.len len ≤ s.cfg.nmax) (ho : s.readIq (s.len len) = o) :
    exec (.qread dst len) s = workerDone o.status o.out.length
      (((s.setIq o.queue).writeC dst o.out).setSeq { s.seq with short := o.out.length < s.len len }) := by
  simp only [exec, execQread, withLen_of_le s hlen, ho]
  cases dst <;> rfl

/-- The registers `c` after a write of `n` samples to OQ that ended as `o` (40_queue R177). -/
def Csrs.countOut (c : Csrs) (n : Nat) (o : WriteResult F32) : Csrs :=
  { c with
    cntQfullOut := if o.status = .qfull then c.cntQfullOut + 1 else c.cntQfullOut
    cntDropOut := if o.status = .qfull then c.cntDropOut + BitVec.ofNat 32 (n - o.accepted) else c.cntDropOut
    sticky := { c.sticky with qfullOut := c.sticky.qfullOut || o.status = .qfull } }

theorem execQwriteOq_of_le {x : List F32} {o : WriteResult F32} (hlen : s.len len ≤ s.cfg.nmax)
    (hx : s.readAu (s.len len) = x) (ho : s.writeOq x = o) :
    exec (.qwriteOq len) s =
      workerDone o.status o.accepted ((s.setOq o.queue).setCsr (s.csr.countOut (s.len len) o)) := by
  simp only [exec, execQwriteOq, withLen_of_le s hlen, hx, ho, Csrs.countOut]
  split
  next hfull =>
    simp only [hfull, decide_true, Bool.or_true]
    rfl
  next hfits =>
    simp only [hfits, decide_false, Bool.or_false]
    rfl

/-! ### Use after teardown -/

/-- Settles O33: each of the four finds its state ABSENT, and `exec_fault_cases` says that no other command faults. -/
theorem useAfterTeardownFaults : Obligations.UseAfterTeardownFaults := by
  intro s len hlen
  refine ⟨fun a b h => ?_, fun h => ?_, fun a h => ?_, fun h => ?_, fun i f hf => ?_⟩
  · simp only [exec, execDecimate0, withLen_of_le s hlen, h, useAfterTeardown]
  · simp only [exec, execDecimate1, withLen_of_le s hlen, h, useAfterTeardown]
  · simp only [exec, execFmDemod, withLen_of_le s hlen, h, useAfterTeardown]
  · simp only [exec, execLpf, withLen_of_le s hlen, h, useAfterTeardown]
  · obtain ⟨hf, ⟨a, b, l, hi, h⟩ | ⟨l, hi, h⟩ | ⟨a, l, hi, h⟩ | ⟨l, hi, h⟩⟩ := exec_fault_cases s hf
    · exact ⟨hf, .inl ⟨h, a, b, l, hi⟩⟩
    · exact ⟨hf, .inr (.inl ⟨h, l, hi⟩)⟩
    · exact ⟨hf, .inr (.inr (.inl ⟨h, a, l, hi⟩))⟩
    · exact ⟨hf, .inr (.inr (.inr ⟨h, l, hi⟩))⟩

end Sys2Proof.Machine
end

section
/-! PROOFS. No turn faults (70_reset R422), and no turn of the worker raises an error during a session (41_worker R233). Settles
O52. -/

namespace Sys2Proof.Machine

variable {s u : State}

/-! ### Every turn completes -/

/-- exec never refuses, so what keeps it from faulting makes it complete. -/
theorem completes_exec {i : Instr} (h : ∀ f, exec i s ≠ .fault f) : Completes (exec i s) := by
  cases hr : exec i s with
  | next t => exact ⟨t, rfl⟩
  | fault f => exact absurd hr (h f)
  | refused r => exact absurd hr (exec_ne_refused s i r)

/-- With the filters of a started session present no command faults (41_worker R226). -/
theorem FiltersInv.completes_exec (h : FiltersInv s) (i : Instr) : Completes (exec i s) := by
  obtain ⟨⟨d0, hd0, -⟩, ⟨d1, hd1, -⟩, ⟨hist, hlpf, -⟩, hfm⟩ := h
  refine Machine.completes_exec fun f hf => ?_
  obtain ⟨-, ⟨_, _, _, -, h⟩ | ⟨_, -, h⟩ | ⟨_, _, -, h⟩ | ⟨_, -, h⟩⟩ := exec_fault_cases s hf
  · exact Option.some_ne_none _ (hd0.symm.trans h)
  · exact Option.some_ne_none _ (hd1.symm.trans h)
  · exact Option.isSome_iff_ne_none.1 hfm h
  · exact Option.some_ne_none _ (hlpf.symm.trans h)

/-- Only micro-operations fault, so no command of an external port does (41_worker R226). -/
theorem completes_exec_of_port {i : Instr} (h : i.port ≠ .w) : Completes (exec i s) := by
  refine completes_exec fun f hf => h ?_
  obtain ⟨-, ⟨_, _, _, rfl, -⟩ | ⟨_, rfl, -⟩ | ⟨_, _, rfl, -⟩ | ⟨_, rfl, -⟩⟩ := exec_fault_cases s hf <;> rfl

theorem completes_runCommand (port : ExtPort) (w : Word) (payload : List Word) : Completes (runCommand port w payload s) := by
  cases hd : decode (portOfExt port) w payload with
  | error r =>
    rw [runCommand_of_error hd]
    exact ⟨_, illegal_eq s _⟩
  | ok i =>
    rw [runCommand_of_ok hd]
    refine completes_exec_of_port ?_
    rw [(carries_of_decode hd).1]
    cases port <;> decide

theorem Inv.completes_runWorker (h : Inv s) : Completes (runWorker s) := by
  by_cases ha : s.seq.wstate = .active
  · obtain ⟨i, -, hrun⟩ := h.exists_microcommand ha
    rw [hrun]
    exact (h.started ha).filters.completes_exec i
  · exact ⟨s, runWorker_of_not_active ha⟩

theorem completes_runControl : Completes (runControl s) := by
  unfold runControl
  split <;> exact ⟨_, rfl⟩

/-- No turn of any agent faults or is refused (70_reset R422). -/
theorem Inv.completes_runEvent (h : Inv s) (e : Event) : Completes (runEvent e s) := by
  cases e with
  | command port w payload => exact completes_runCommand port w payload
  | worker => exact h.completes_runWorker
  | control => exact completes_runControl
  | sync q cv pv => cases q <;> exact ⟨_, rfl⟩

theorem Inv.completes_step (h : Inv s) : Completes (step s) := by
  rcases step_cases s with ⟨e, rest, -, he⟩ | ⟨e, -, -, he⟩ | ⟨-, -, he⟩ <;> rw [he]
  · have h1 : Inv (s.setSched rest) := h.setRecords _ _ _ fun _ => ⟨rfl, rfl, rfl⟩
    exact h1.completes_runEvent e
  · exact h.completes_runEvent e
  · exact ⟨s, rfl⟩

/-! ### The worker's errors -/

/-- The error records of the registers are the same, ERR_QFULL_OUT apart. -/
def SameErrors (c d : Csrs) : Prop :=
  d.cfgCause = c.cfgCause ∧ { d.sticky with qfullOut := false } = { c.sticky with qfullOut := false }

theorem sameErrors_of_eq {c d : Csrs} (h : d = c) : SameErrors c d := h ▸ ⟨rfl, rfl⟩

theorem sameErrors_countOut (c : Csrs) (n : Nat) (o : WriteResult F32) : SameErrors c (c.countOut n o) := ⟨rfl, rfl⟩

/-- The statuses 41_worker R233 leaves a turn of the worker. -/
def Status.isErrorFree (st : Status) : Prop := st = .ok ∨ st = .qfull ∨ st = .closed

/-- What a turn of the worker does during a session (41_worker R233): it records no error and raises none. -/
def ErrorFree (s t : State) : Prop :=
  SameErrors s.csr t.csr ∧
    (t.replies = s.replies ∨ ∃ (st : Status) (n : Nat), st.isErrorFree ∧
      t.replies = ⟨.w, responseWord st n, []⟩ :: s.replies)

theorem errorFree_respond {st : Status} {n : Nat} (hst : st.isErrorFree) (hcsr : SameErrors s.csr u.csr)
    (hreplies : u.replies = s.replies) : ErrorFree s (u.respond .w st n []) :=
  ⟨hcsr, .inr ⟨st, n, hst, congrArg _ hreplies⟩⟩

theorem errorFree_workerDone {st : Status} {n : Nat} (hst : st.isErrorFree) (hcsr : SameErrors s.csr u.csr)
    (hreplies : u.replies = s.replies) : Ensures (workerDone st n u) (ErrorFree s) :=
  ensures_next.2 (errorFree_respond hst hcsr hreplies)

/-- A micro-operation that leaves the registers as they are and answers OK. -/
theorem errorFree_ok {n : Nat} (hcsr : u.csr = s.csr) (hreplies : u.replies = s.replies) :
    Ensures (workerDone .ok n u) (ErrorFree s) :=
  errorFree_workerDone (.inl rfl) (sameErrors_of_eq hcsr) hreplies

theorem queueWrite_isErrorFree {α : Type} (view : QueueView) (cap : Nat) (q : Queue α) (data : List α) :
    (queueWrite view cap q data).status.isErrorFree := by
  rw [queueWrite_status]
  split_ifs
  · exact .inr (.inl rfl)
  · exact .inl rfl
  · exact .inr (.inr rfl)

theorem queueRead_isErrorFree {α : Type} (free : Nat → α) (view : QueueView) (cap : Nat) (q : Queue α) (max : Nat) :
    (queueRead free view cap q max).status.isErrorFree := by
  unfold queueRead
  split
  · exact .inl rfl
  · exact .inr (.inr rfl)

theorem errorFree_seqTop : Ensures (exec .seqTop s) (ErrorFree s) := by
  simp only [exec, execSeqTop, ensures_ite, ensures_next]
  exact ⟨fun _ => errorFree_respond (.inl rfl) ⟨rfl, rfl⟩ rfl, fun _ => errorFree_ok rfl rfl⟩

theorem errorFree_seqWait : Ensures (exec .seqWait s) (ErrorFree s) := by
  simp only [exec, execSeqWait, ensures_ite, ensures_next]
  exact ⟨fun _ => errorFree_ok rfl rfl, fun _ => ⟨⟨rfl, rfl⟩, .inl rfl⟩⟩

theorem errorFree_seqJshort (target : Nat) : Ensures (exec (.seqJshort target) s) (ErrorFree s) := by
  simp only [exec, execSeqJshort, ensures_ite, ensures_next]
  exact ⟨fun _ => errorFree_respond (.inl rfl) ⟨rfl, rfl⟩ rfl, fun _ => errorFree_ok rfl rfl⟩

/-- In a started session the lengths fit, the window is of the session's length, both transform sizes are supported and every
filter is present, so each command of the ROM runs to its end. -/
theorem Started.errorFree (h : Started s) {i : Instr} (hi : i ∈ microcommands) : Ensures (exec i s) (ErrorFree s) := by
  obtain ⟨hses, ⟨⟨d0, hd0, -⟩, ⟨d1, hd1, -⟩, ⟨hist, hlpf, -⟩, hfm⟩, -⟩ := h
  obtain ⟨prev, hprev⟩ := Option.isSome_iff_exists.1 hfm
  simp only [microcommands, List.mem_cons, List.not_mem_nil, or_false] at hi
  rcases hi with rfl | rfl | rfl | rfl | rfl | rfl | rfl | rfl | rfl | rfl | rfl | rfl | rfl | rfl | rfl | rfl | rfl
  · exact errorFree_seqTop
  · exact errorFree_seqWait
  · rw [execQread_of_le (len := .n) hses.sN_le rfl]
    exact errorFree_workerDone (queueRead_isErrorFree ..) ⟨rfl, rfl⟩ rfl
  · exact errorFree_seqJshort 0
  · exact errorFree_workerDone (.inl rfl) ⟨rfl, rfl⟩ rfl
  · rw [execBufCopy_of_ne (len := .n) hses.sN_le (by decide) rfl]
    exact errorFree_ok rfl rfl
  · rw [execWinApply_of_winLen (len := .n) hses.sN_le hses.winLen rfl]
    split <;> exact errorFree_ok rfl rfl
  · rw [execFftFwd_of_supported (len := .n) hses.supportN rfl]
    exact errorFree_ok rfl rfl
  · rw [execSpecPower_of_le (len := .n) hses.sN_le rfl]
    exact errorFree_ok rfl rfl
  · rw [execDecimate0_of_present (len := .n) hses.sN_le hd0 rfl rfl]
    exact errorFree_ok rfl rfl
  · rw [execFmDemod_of_present (len := .m) hses.sM_le hprev rfl rfl]
    exact errorFree_ok rfl rfl
  · rw [execLpf_of_present (len := .m) hses.sM_le hlpf rfl rfl]
    exact errorFree_ok rfl rfl
  · rw [execDecimate1_of_present (len := .m) hses.sM_le hd1 rfl rfl]
    exact errorFree_ok rfl rfl
  · rw [execQwriteOq_of_le (len := .k) hses.sK_le rfl rfl]
    exact errorFree_workerDone (queueWrite_isErrorFree ..) (sameErrors_countOut ..) rfl
  · rw [execFftFwd_of_supported (len := .m) hses.supportM rfl]
    exact errorFree_ok rfl rfl
  · rw [execSpecPower_of_le (len := .m) hses.sM_le rfl]
    exact errorFree_ok rfl rfl
  · exact ensures_next.2 (errorFree_respond (.inl rfl) ⟨rfl, rfl⟩ rfl)

theorem Inv.errorFree_runWorker (h : Inv s) : Ensures (runWorker s) (ErrorFree s) := by
  by_cases ha : s.seq.wstate = .active
  · obtain ⟨i, hi, hrun⟩ := h.exists_microcommand ha
    rw [hrun]
    exact (h.started ha).errorFree (List.mem_of_getElem? hi)
  · rw [runWorker_of_not_active ha]
    exact ensures_next.2 ⟨⟨rfl, rfl⟩, .inl rfl⟩

/-- Settles O52: every turn completes, and the worker's are `ErrorFree`. -/
theorem noErrorDuringASession : Obligations.NoErrorDuringASession := by
  intro s h
  refine ⟨h.completes_step, h.completes_runEvent, fun t ht => ?_⟩
  obtain ⟨⟨hcause, hsticky⟩, hreplies⟩ := h.errorFree_runWorker t ht
  exact ⟨hcause, hsticky, hreplies⟩

end Sys2Proof.Machine
end

section
/-! PROOFS. The worker's turns in a row: what one complete cycle of the ROM does (41_worker R229, R232). Settles O60. -/

namespace Sys2Proof.Machine

/-! ### Buffers read back -/

theorem State.readC_writeC (s : State) {b : CBuf} {vs : List C32} {n : Nat} (h : vs.length = n) :
    (s.writeC b vs).readC b n = vs := by
  rw [← h, State.readC_writeC_same]

theorem State.readAu_writeAu_of_length (s : State) {vs : List F32} {n : Nat} (h : vs.length = n) :
    (s.writeAu vs).readAu n = vs := by
  rw [← h, State.readAu_writeAu]

theorem State.readPower_of_writeBlock {s : State} {p : PowerBuf} {m : Memory F32} {bins : List F32} {n : Nat}
    (hm : s.powerBins p = m.writeBlock 0 bins) (hn : bins.length = n) : s.readPower p n = bins := by
  subst hn
  cases p <;> simp only [State.powerBins] at hm <;> simp only [State.readPower, hm, Memory.readBlock_writeBlock]

@[simp] theorem State.writeC_len (s : State) (b : CBuf) (vs : List C32) (len : Len) :
    (s.writeC b vs).len len = s.len len := by cases b <;> rfl

@[simp] theorem State.writeC_powerOffset (s : State) (b : CBuf) (vs : List C32) (p : PowerBuf) :
    (s.writeC b vs).powerOffset p = s.powerOffset p := by cases b <;> rfl

@[simp] theorem numDft_length (x : List C32) : (numDft x).length = x.length := by simp [numDft]

/-! ### Turns of the worker -/

/-- The state with the worker about to run the ROM at `pc`, `turns` turns of its own to come, and `r` answered so far. -/
def State.onTurn (u : State) (pc turns : Nat) (r : List Reply) : State :=
  { u with
    rom := microprogram
    seq := { u.seq with wstate := .active, upc := pc }
    sched := List.replicate turns .worker
    replies := r }

/-- `k` turns of the worker from micro-address `pc` on take `u` to `v`, whatever was answered and however many turns follow. -/
def Performs (k pc : Nat) (u v : State) : Prop :=
  ∀ n r, ∃ r', Sys2Proof.core.run (n + k) (u.onTurn pc (n + k) r) = Sys2Proof.core.run n (v.onTurn (pc + k) n r')

section Turns
variable {pc k l n : Nat} {r : List Reply} {u v w : State} {i : Instr}

theorem run_onTurn {t : State} (hi : microcommands[pc]? = some i) (ht : exec i (u.onTurn pc n r) = .next t) :
    Sys2Proof.core.run (n + 1) (u.onTurn pc (n + 1) r) = Sys2Proof.core.run n t := by
  have hstep : Sys2Proof.core.step (u.onTurn pc (n + 1) r) = .next t :=
    calc step (u.onTurn pc (n + 1) r)
        = runWorker (u.onTurn pc n r) := step_of_sched (e := .worker) (rest := List.replicate n .worker) rfl
      _ = exec i (u.onTurn pc n r) := runWorker_of_microprogram rfl rfl hi
      _ = .next t := ht
  simp only [Host.Core.run, hstep]

theorem Performs.of_exec {st : Status} {c : Nat} (hi : microcommands[pc]? = some i)
    (h : ∀ n r, exec i (u.onTurn pc n r) = workerDone st c (v.onTurn pc n r)) : Performs 1 pc u v :=
  fun n r => ⟨_, run_onTurn hi (h n r)⟩

theorem Performs.trans (h : Performs k pc u v) (h' : Performs l (pc + k) v w) : Performs (k + l) pc u w := by
  intro n r
  obtain ⟨r', h1⟩ := h (n + l) r
  obtain ⟨r'', h2⟩ := h' n r'
  refine ⟨r'', ?_⟩
  rw [Nat.add_assoc n l k, Nat.add_comm l k] at h1
  rw [h1, h2, Nat.add_assoc]

variable {len : Len}

theorem performs_seqTop (hi : microcommands[pc]? = some .seqTop) (h : u.ses.stopReq = false) :
    Performs 1 pc u u.forgetWork :=
  .of_exec hi fun n r => execSeqTop_of_continue (s := u.onTurn pc n r) h

theorem performs_seqWait (hi : microcommands[pc]? = some .seqWait) (h : waitPasses u = true) : Performs 1 pc u u :=
  .of_exec hi fun n r => execSeqWait_of_passes (s := u.onTurn pc n r) h

theorem performs_seqJshort {target : Nat} (hi : microcommands[pc]? = some (.seqJshort target)) (h : u.seq.short = false) :
    Performs 1 pc u u :=
  .of_exec hi fun n r => execSeqJshort_of_full (s := u.onTurn pc n r) h

theorem performs_qread {dst : CBuf} {o : ReadResult C32} (hi : microcommands[pc]? = some (.qread dst len))
    (hlen : u.len len ≤ u.cfg.nmax) (ho : u.readIq (u.len len) = o) (hfull : u.len len ≤ o.out.length) :
    Performs 1 pc u (((u.setIq o.queue).writeC dst o.out).setSeq { u.seq with short := false }) :=
  .of_exec hi fun n r => (execQread_of_le (s := u.onTurn pc n r) hlen ho).trans (by
    rw [decide_eq_false (Nat.not_lt.2 hfull : ¬o.out.length < (u.onTurn pc n r).len len)]
    cases dst <;> rfl)

theorem performs_bufCopy {a b : CBuf} {x : List C32} (hi : microcommands[pc]? = some (.bufCopy (.complex a) (.complex b) len))
    (hlen : u.len len ≤ u.cfg.nmax) (hab : a ≠ b) (hx : u.readC a (u.len len) = x) : Performs 1 pc u (u.writeC b x) :=
  .of_exec hi fun n r => (execBufCopy_of_ne (s := u.onTurn pc n r) hlen hab hx).trans (by cases b <;> rfl)

/-- The block as WIN_APPLY leaves it, the coefficients applied where windowing is latched (43_spectrum R260). -/
def windowedBlock (latched : Bool) (x : List C32) (coefficients : List F32) : List C32 :=
  if latched then List.zipWith windowSample x coefficients else x

theorem performs_winApply {dst : CBuf} {x : List C32} (hi : microcommands[pc]? = some (.winApply dst len))
    (hlen : u.len len ≤ u.cfg.nmax) (hwin : u.buf.winLen = u.len len) (hx : u.readC dst (u.len len) = x) :
    ∃ m, Performs 1 pc u (u.setCbuf dst m) ∧
      (u.setCbuf dst m).readC dst (u.len len) = windowedBlock u.seq.latWin x (u.readWin (u.len len)) := by
  have hturn : ∀ n r, exec (.winApply dst len) (u.onTurn pc n r) = _ := fun n r =>
    execWinApply_of_winLen (s := u.onTurn pc n r) hlen hwin hx
  unfold windowedBlock
  cases hlat : u.seq.latWin with
  | true =>
    refine ⟨(u.cbuf dst).writeBlock 0 (List.zipWith windowSample x (u.readWin (u.len len))),
      .of_exec (st := .ok) (c := 0) hi fun n r => (hturn n r).trans ?_, ?_⟩
    · rw [if_pos (show (u.onTurn pc n r).seq.latWin = true from hlat)]
      cases dst <;> rfl
    · exact u.readC_writeC (by simp [← hx])
  | false =>
    refine ⟨u.cbuf dst, .of_exec (st := .ok) (c := 0) hi fun n r => (hturn n r).trans ?_, ?_⟩
    · rw [if_neg (show ¬ (u.onTurn pc n r).seq.latWin = true by simp [State.onTurn, hlat])]
      cases dst <;> rfl
    · exact Eq.trans (by cases dst <;> rfl) hx

theorem performs_fftFwd {b : CBuf} {x : List C32} (hi : microcommands[pc]? = some (.fftFwd b len))
    (hlen : supported u.cfg.nmax (u.len len) = true) (hx : u.readC b (u.len len) = x) :
    Performs 1 pc u (u.writeC b (numDft x)) :=
  .of_exec hi fun n r => (execFftFwd_of_supported (s := u.onTurn pc n r) hlen hx).trans (by cases b <;> rfl)

theorem performs_specPower {b : CBuf} {p : PowerBuf} {x : List C32} (hi : microcommands[pc]? = some (.specPower b p len))
    (hlen : u.len len ≤ u.cfg.nmax) (hx : u.readC b (u.len len) = x) :
    Performs 1 pc u (u.commitPower p (x.map (binDb (u.powerOffset p))) (u.len len)) :=
  .of_exec hi fun n r => (execSpecPower_of_le (s := u.onTurn pc n r) hlen hx).trans (by cases p <;> rfl)

theorem performs_decimate0 {a b : CBuf} {d : DecState C32} {x : List C32} {y : List C32 × DecState C32}
    (hi : microcommands[pc]? = some (.decimate0 a b len)) (hlen : u.len len ≤ u.cfg.nmax) (hd : u.dsp.dec0 = some d)
    (hx : u.readC a (u.len len) = x) (hy : u.dec0Run d x = y) :
    Performs 1 pc u ((u.setDsp { u.dsp with dec0 := some y.2 }).writeC b y.1) :=
  .of_exec hi fun n r => (execDecimate0_of_present (s := u.onTurn pc n r) hlen hd hx hy).trans (by cases b <;> rfl)

theorem performs_decimate1 {d : DecState F32} {x : List F32} {y : List F32 × DecState F32}
    (hi : microcommands[pc]? = some (.decimate1 len)) (hlen : u.len len ≤ u.cfg.nmax) (hd : u.dsp.dec1 = some d)
    (hx : u.readAu (u.len len) = x) (hy : u.dec1Run d x = y) :
    Performs 1 pc u ((u.setDsp { u.dsp with dec1 := some y.2 }).writeAu y.1) :=
  .of_exec hi fun n r => execDecimate1_of_present (s := u.onTurn pc n r) hlen hd hx hy

theorem performs_fmDemod {a : CBuf} {prev : C32} {x : List C32} {y : List F32 × C32}
    (hi : microcommands[pc]? = some (.fmDemod a len)) (hlen : u.len len ≤ u.cfg.nmax) (hd : u.dsp.fm = some prev)
    (hx : u.readC a (u.len len) = x) (hy : demodulate u.cfg.fmGain prev x = y) :
    Performs 1 pc u ((u.setDsp { u.dsp with fm := some y.2 }).writeAu y.1) :=
  .of_exec hi fun n r => execFmDemod_of_present (s := u.onTurn pc n r) hlen hd hx hy

theorem performs_lpf {hist x : List F32} {y : List F32 × List F32} (hi : microcommands[pc]? = some (.lpf len))
    (hlen : u.len len ≤ u.cfg.nmax) (hd : u.dsp.lpf = some hist) (hx : u.readAu (u.len len) = x)
    (hy : lowPass u.cfg.h2 hist x = y) : Performs 1 pc u ((u.setDsp { u.dsp with lpf := some y.2 }).writeAu y.1) :=
  .of_exec hi fun n r => execLpf_of_present (s := u.onTurn pc n r) hlen hd hx hy

theorem performs_qwriteOq {x : List F32} {o : WriteResult F32} (hi : microcommands[pc]? = some (.qwriteOq len))
    (hlen : u.len len ≤ u.cfg.nmax) (hx : u.readAu (u.len len) = x) (ho : u.writeOq x = o) :
    Performs 1 pc u ((u.setOq o.queue).setCsr (u.csr.countOut (u.len len) o)) :=
  .of_exec hi fun n r => execQwriteOq_of_le (s := u.onTurn pc n r) hlen hx ho

theorem performs_seqLatch (hi : microcommands[pc]? = some .seqLatch) : Performs 1 pc u u.latch :=
  .of_exec hi fun n r => execSeqLatch_eq (s := u.onTurn pc n r)

/-- FFT_FWD and SPEC_POWER of one buffer: the decibels of its transform are committed (43_spectrum R265, R270). -/
theorem performs_spectrum {b : CBuf} {p : PowerBuf} {x : List C32} (hi : microcommands[pc]? = some (.fftFwd b len))
    (hi' : microcommands[pc + 1]? = some (.specPower b p len)) (hlen : supported u.cfg.nmax (u.len len) = true)
    (hx : u.readC b (u.len len) = x) :
    Performs 2 pc u ((u.writeC b (numDft x)).commitPower p ((numDft x).map (binDb (u.powerOffset p))) (u.len len)) := by
  have hdft : (u.writeC b (numDft x)).readC b (u.len len) = numDft x := u.readC_writeC (by simp [← hx])
  have hpower : Performs 1 (pc + 1) (u.writeC b (numDft x)) _ :=
    performs_specPower hi' (by simpa using ((supported_iff _ _).1 hlen).2.2) (x := numDft x) (by rwa [State.writeC_len])
  rw [State.writeC_powerOffset, State.writeC_len] at hpower
  exact (performs_fftFwd hi hlen hx).trans hpower

end Turns

/-! ### The four parts of a cycle -/

section Cycle

/-- The signals of a cycle on the block `x`, where its filters stand at `d0`, `d1`, `hist` and `prev` (41_worker R232): the
decimated block `y`, its phases `v`, these filtered `z`, and the audio `a`, each with the state it leaves its filter in. -/
structure AudioChain (u : State) (d0 : DecState C32) (d1 : DecState F32) (hist : List F32) (prev : C32) (x : List C32)
    (y : List C32 × DecState C32) (v : List F32 × C32) (z : List F32 × List F32) (a : List F32 × DecState F32) : Prop where
  dsp         : u.dsp = ⟨some d0, some d1, some hist, some prev⟩
  decimated   : u.dec0Run d0 x = y
  demodulated : demodulate u.cfg.fmGain prev y.1 = v
  filtered    : lowPass u.cfg.h2 hist v.1 = z
  audio       : u.dec1Run d1 z.1 = a
  lenM        : y.1.length = u.ses.sM
  lenK        : a.1.length = u.ses.sK

variable {u : State} {d0 : DecState C32} {d1 : DecState F32} {hist : List F32} {prev : C32} {x : List C32}
  {y : List C32 × DecState C32} {v : List F32 × C32} {z : List F32 × List F32} {a : List F32 × DecState F32}
  {q : ReadResult C32} {o : WriteResult F32}

/-- The block read from IQ as `q` says, and whole in WB. -/
def State.afterIntake (u : State) (q : ReadResult C32) (wb : Memory C32) : State :=
  { u with
    iq := q.queue
    buf := { u.buf.forgetWork with wb := wb }
    seq := { u.seq with short := false } }

/-- Micro-addresses 0 to 3 with a block in view. -/
theorem performs_intake (hses : SessionInv u) (hstop : u.ses.stopReq = false) (hview : u.ses.sN ≤ u.iq.cv)
    (hq : u.readIq u.ses.sN = q) (hfull : q.out.length = u.ses.sN) :
    ∃ wb, Performs 4 0 u (u.afterIntake q wb) ∧ (u.afterIntake q wb).readC .wb u.ses.sN = q.out := by
  have hpass : waitPasses u.forgetWork = true := by simp [waitPasses, hview]
  have h0 : Performs 1 0 u u.forgetWork := performs_seqTop rfl hstop
  have h1 := performs_seqWait (pc := 1) rfl hpass
  have h2 := performs_qread (pc := 2) (u := u.forgetWork) (len := .n) (dst := .wb) rfl hses.sN_le hq hfull.ge
  have h3 := performs_seqJshort (pc := 3) (target := 0)
    (u := ((u.forgetWork.setIq q.queue).writeC .wb q.out).setSeq { u.seq with short := false }) rfl rfl
  exact ⟨_, h0.trans (h1.trans (h2.trans h3)), (u.forgetWork.setIq q.queue).readC_writeC (b := .wb) hfull⟩

/-- The bins the wideband branch commits for the block `x`. -/
def State.wideBins (u : State) (x : List C32) : List F32 :=
  (numDft (windowedBlock u.csr.winEn x (u.readWin u.ses.sN))).map (binDb u.latch.csr.wbOffset)

/-- The settings latched and the bins of the block `x` committed to PW_WB. -/
def State.afterWideband (u : State) (x : List C32) (wb db : Memory C32) : State :=
  { u.latch with
    buf := { u.buf with
      wb := wb
      db := db
      pwWb := u.buf.pwWb.writeBlock 0 (u.wideBins x)
      lastLenWb := u.ses.sN
      wbValid := true } }

/-- Micro-addresses 4 to 8: the block's copy stays in DB. -/
theorem performs_wideband (hses : SessionInv u) (hx : u.readC .wb u.ses.sN = x) :
    ∃ wb db, Performs 5 4 u (u.afterWideband x wb db) ∧ (u.afterWideband x wb db).readC .db u.ses.sN = x := by
  have hlen : x.length = u.ses.sN := by rw [← hx, State.readC_length]
  have h4 : Performs 1 4 u u.latch := performs_seqLatch rfl
  have h5 := performs_bufCopy (pc := 5) (u := u.latch) (a := .wb) (b := .db) (len := .n) rfl hses.sN_le (by decide) hx
  obtain ⟨m, h6, hm⟩ := performs_winApply (pc := 6) (u := u.latch.writeC .db x) (dst := .wb) (len := .n) rfl hses.sN_le
    hses.winLen hx
  have h7 := performs_spectrum (pc := 7) (u := (u.latch.writeC .db x).setCbuf .wb m) (b := .wb) (p := .wide) (len := .n)
    rfl rfl hses.supportN hm
  exact ⟨_, _, h4.trans (h5.trans (h6.trans h7)), u.latch.readC_writeC (b := .db) hlen⟩

/-- The filters as a cycle with these signals leaves them. -/
def filtersAfter (y : List C32 × DecState C32) (v : List F32 × C32) (z : List F32 × List F32)
    (a : List F32 × DecState F32) : Filters :=
  ⟨some y.2, some a.2, some z.2, some v.2⟩

/-- The filters as `d` and the audio written to OQ, which ended as `o`. -/
def State.afterAudio (u : State) (d : Filters) (o : WriteResult F32) (nb : Memory C32) (au : Memory F32) : State :=
  { u with
    dsp := d
    oq := o.queue
    csr := u.csr.countOut u.ses.sK o
    buf := { u.buf with nb := nb, au := au } }

/-- A session's block decimates to exactly M samples and their audio to exactly K (42_decimator R244, 46_control R335). -/
theorem Started.audioChain (h : Started u) (hdsp : u.dsp = ⟨some d0, some d1, some hist, some prev⟩)
    (hx : x.length = u.ses.sN) (hy : u.dec0Run d0 x = y) (hv : demodulate u.cfg.fmGain prev y.1 = v)
    (hz : lowPass u.cfg.h2 hist v.1 = z) (ha : u.dec1Run d1 z.1 = a) : AudioChain u d0 d1 hist prev x y v z a := by
  obtain ⟨hses, ⟨⟨st0, hst0, -, hphase0⟩, ⟨st1, hst1, -, hphase1⟩, -, -⟩, -⟩ := h
  rw [hdsp] at hst0 hst1
  cases hst0
  cases hst1
  have hylen : y.1.length = u.ses.sM := by
    rw [← hy]
    exact (decimate_whole _ hses.sD_pos hphase0 (by rw [hx, hses.mExact])).1
  have hzlen : z.1.length = u.ses.sM := by rw [← hz, lowPass_length, ← hv, demodulate_length, hylen]
  have halen : a.1.length = u.ses.sK := by
    rw [← ha]
    exact (decimate_whole _ hses.sD2_pos hphase1 (by rw [hzlen, hses.kExact])).1
  exact ⟨hdsp, hy, hv, hz, ha, hylen, halen⟩

/-- Micro-addresses 9 to 13: the decimated block stays in NB. -/
theorem performs_audio (hses : SessionInv u) (hx : u.readC .db u.ses.sN = x) (h : AudioChain u d0 d1 hist prev x y v z a)
    (ho : u.writeOq a.1 = o) :
    ∃ nb au, Performs 5 9 u (u.afterAudio (filtersAfter y v z a) o nb au) ∧
      (u.afterAudio (filtersAfter y v z a) o nb au).readC .nb u.ses.sM = y.1 := by
  obtain ⟨hdsp, hy, hv, hz, ha, hylen, halen⟩ := h
  have hvlen : v.1.length = u.ses.sM := by rw [← hv, demodulate_length, hylen]
  have hzlen : z.1.length = u.ses.sM := by rw [← hz, lowPass_length, hvlen]
  have h9 := performs_decimate0 (pc := 9) (u := u) (a := .db) (b := .nb) (len := .n) (d := d0) rfl hses.sN_le
    (by rw [hdsp]) hx hy
  rw [hdsp] at h9
  have h10 := performs_fmDemod (pc := 10)
    (u := (u.setDsp ⟨some y.2, some d1, some hist, some prev⟩).writeC .nb y.1) (a := .nb) (len := .m) rfl hses.sM_le rfl
    (State.readC_writeC _ hylen) hv
  have h11 := performs_lpf (pc := 11)
    (u := ((u.setDsp ⟨some y.2, some d1, some hist, some v.2⟩).writeC .nb y.1).writeAu v.1) (len := .m) rfl hses.sM_le
    rfl (State.readAu_writeAu_of_length _ hvlen) hz
  have h12 := performs_decimate1 (pc := 12)
    (u := (((u.setDsp ⟨some y.2, some d1, some z.2, some v.2⟩).writeC .nb y.1).writeAu v.1).writeAu z.1) (len := .m) rfl
    hses.sM_le rfl (State.readAu_writeAu_of_length _ hzlen) ha
  have h13 := performs_qwriteOq (pc := 13) (o := o)
    (u := ((((u.setDsp (filtersAfter y v z a)).writeC .nb y.1).writeAu v.1).writeAu z.1).writeAu a.1)
    (len := .k) rfl hses.sK_le (State.readAu_writeAu_of_length _ halen) ho
  have h := h9.trans (h10.trans (h11.trans (h12.trans h13)))
  simp only [State.writeAu, State.writeC, State.setCbuf, State.setBuf, State.setDsp, State.setOq, State.setCsr] at h
  exact ⟨_, _, h, u.readC_writeC (b := .nb) hylen⟩

/-- The bins of the decimated block `y` committed to PW_NB. -/
def State.afterNarrowband (u : State) (y : List C32) : State :=
  (u.writeC .nb (numDft y)).commitPower .narrow ((numDft y).map (binDb u.csr.nbOffset)) u.ses.sM

/-- Micro-addresses 0 to 15 with a block in view. -/
theorem performs_cycle (hses : SessionInv u) (hstop : u.ses.stopReq = false) (hview : u.ses.sN ≤ u.iq.cv)
    (hq : u.readIq u.ses.sN = q) (hfull : q.out.length = u.ses.sN) (h : AudioChain u d0 d1 hist prev q.out y v z a)
    (ho : u.writeOq a.1 = o) :
    ∃ wb wb' db nb au, Performs 16 0 u ((((u.afterIntake q wb).afterWideband q.out wb' db).afterAudio
      (filtersAfter y v z a) o nb au).afterNarrowband y.1) := by
  obtain ⟨wb, hintake, hwb⟩ := performs_intake hses hstop hview hq hfull
  obtain ⟨wb', db, hwide, hdb⟩ := performs_wideband (u := u.afterIntake q wb) { hses with } hwb
  obtain ⟨nb, au, haudio, hnb⟩ := performs_audio (u := (u.afterIntake q wb).afterWideband q.out wb' db) { hses with } hdb
    { h with } ho
  have hnarrow := performs_spectrum (pc := 14) (len := .m) (b := .nb) (p := .narrow)
    (u := ((u.afterIntake q wb).afterWideband q.out wb' db).afterAudio (filtersAfter y v z a) o nb au)
    rfl rfl hses.supportM hnb
  exact ⟨wb, wb', db, nb, au, hintake.trans (hwide.trans (haudio.trans hnarrow))⟩

end Cycle

/-! ### One complete cycle -/

theorem windowedBlock_length {b : Bool} {x : List C32} {cs : List F32} (h : cs.length = x.length) :
    (windowedBlock b x cs).length = x.length := by
  cases b <;> simp [windowedBlock, h]

theorem Inv.eq_onTurn {s : State} (h : Inv s) {pc n : Nat} (ha : s.seq.wstate = .active) (hpc : s.seq.upc = pc)
    (hsched : s.sched = List.replicate n .worker) : s = s.onTurn pc n s.replies := by
  unfold State.onTurn
  rw [← h.rom, ← ha, ← hpc, ← hsched]

/-- SEQ_END is the seventeenth turn. -/
theorem Performs.run_seqEnd {u v : State} (h : Performs 16 0 u v) (r : List Reply) :
    ∃ r', Sys2Proof.core.run 17 (u.onTurn 0 17 r) =
      .next (((v.onTurn 16 0 r').forgetWork.countCycle.setUpc 0).respond .w .ok 0 []) := by
  obtain ⟨r', hrun⟩ := h 1 r
  exact ⟨r', hrun.trans (run_onTurn (n := 0) (i := .seqEnd) rfl rfl)⟩

/-- A read of no more than is in view returns that many of the samples held, the oldest. -/
theorem QueueInv.queueRead_out_of_le {α : Type} {free : Nat → α} {view : QueueView} {cap : Nat} {q : Queue α} {n : Nat}
    (h : QueueInv view cap q) (hopen : q.isOpen = true) (hn : n ≤ q.cv) :
    (queueRead free view cap q n).out = (q.items free cap).take n ∧ (queueRead free view cap q n).out.length = n := by
  have hlen : (queueRead free view cap q n).out.length = n :=
    (queueRead_out_length_open n hopen).trans (Nat.min_eq_left hn)
  exact ⟨by rw [h.queueRead_out_eq_take, hlen], hlen⟩

/-- Settles O60: `performs_cycle` and SEQ_END, each conclusion read off the state they leave. -/
theorem completeCycleEffects : Obligations.CompleteCycleEffects := by
  intro s d0 d1 hist prev h hrunning hupc hopen hview hsched hdsp x windowed wbOffset nbOffset y v z a o
  have hl := h.running hrunning
  obtain ⟨hx, hfull⟩ : (s.readIq s.ses.sN).out = x ∧ (s.readIq s.ses.sN).out.length = s.ses.sN :=
    h.iq.queueRead_out_of_le hopen hview
  have hxlen : x.length = s.ses.sN := hx ▸ hfull
  have hchain : AudioChain s d0 d1 hist prev x y v z a := hl.toStarted.audioChain hdsp hxlen rfl rfl rfl rfl
  obtain ⟨wb, wb', db, nb, au, hcycle⟩ :=
    performs_cycle (o := o) hl.session hl.stopReq hview rfl hfull (hx ▸ hchain) rfl
  rw [hx] at hcycle
  obtain ⟨r, hrun⟩ := hcycle.run_seqEnd s.replies
  rw [← h.eq_onTurn hl.active hupc hsched] at hrun
  have hwideLen : ((numDft windowed).map (binDb wbOffset)).length = s.ses.sN := by
    rw [List.length_map, numDft_length]
    exact (windowedBlock_length (by rw [State.readWin_length, hxlen])).trans hxlen
  have hnarrowLen : ((numDft y.1).map (binDb nbOffset)).length = s.ses.sM := by
    rw [List.length_map, numDft_length, hchain.lenM]
  refine ⟨_, hrun, hchain.lenM, hchain.lenK, State.readPower_of_writeBlock (m := s.buf.pwWb) rfl hwideLen,
    State.readPower_of_writeBlock (m := s.buf.pwNb) rfl hnarrowLen,
    fun k hk => Memory.read_writeBlock_outside _ 0 k _ (.inr ((Nat.zero_add _).trans_le (hwideLen.trans_le hk))),
    fun k hk => Memory.read_writeBlock_outside _ 0 k _ (.inr ((Nat.zero_add _).trans_le (hnarrowLen.trans_le hk))),
    rfl, rfl, rfl, rfl, rfl, rfl, rfl, rfl,
    (h.iq.items_read_eq_drop _).trans (congrArg (s.iqItems.drop ·) hfull), rfl, ?_, ?_, ?_, h.rom.symm, rfl⟩
  all_goals simp [State.afterNarrowband, State.afterAudio, State.afterWideband, State.afterIntake, State.latch,
    State.onTurn, hl.active]

end Sys2Proof.Machine
end

section
/-! PROOFS. What a Decimator's outputs sum, over how many calls, and what DECIMATE does with them (42_decimator R240 to R249).
Settles O40, O43 and O44. -/

namespace Sys2Proof.Machine

section Decimator

variable {α : Type} (fir : List α → α) {taps factor : Nat} {st : DecState α}

/-! ### One input -/

theorem decimate_cons_of_last (h : st.phase + 1 = factor) (x : α) (xs : List α) :
    decimate fir taps factor st (x :: xs) =
      (fir (x :: st.hist) :: (decimate fir taps factor ⟨(x :: st.hist).take (taps - 1), 0⟩ xs).1,
        (decimate fir taps factor ⟨(x :: st.hist).take (taps - 1), 0⟩ xs).2) := if_pos h

theorem decimate_cons_of_more (h : st.phase + 1 ≠ factor) (x : α) (xs : List α) :
    decimate fir taps factor st (x :: xs) =
      decimate fir taps factor ⟨(x :: st.hist).take (taps - 1), st.phase + 1⟩ xs := if_neg h

/-! ### Consecutive calls -/

/-- The state is all that a call takes over from the inputs before it (42_decimator R242). -/
theorem decimate_append (x x' : List α) :
    decimate fir taps factor st (x ++ x') =
      ((decimate fir taps factor st x).1 ++ (decimate fir taps factor (decimate fir taps factor st x).2 x').1,
        (decimate fir taps factor (decimate fir taps factor st x).2 x').2) := by
  induction x generalizing st with
  | nil => rfl
  | cons a x ih =>
    by_cases h : st.phase + 1 = factor
    · rw [List.cons_append, decimate_cons_of_last fir h, decimate_cons_of_last fir h, ih, List.cons_append]
    · rw [List.cons_append, decimate_cons_of_more fir h, decimate_cons_of_more fir h, ih]

/-- `decimate_count` solved for the number of outputs and the phase left (42_decimator R244). -/
theorem decimate_length_phase (h : st.phase < factor) (xs : List α) :
    (decimate fir taps factor st xs).1.length = (st.phase + xs.length) / factor ∧
      (decimate fir taps factor st xs).2.phase = (st.phase + xs.length) % factor := by
  obtain ⟨hsum, hlt⟩ := decimate_count fir (taps := taps) h xs
  constructor
  · rw [← hsum, Nat.mul_comm, Nat.mul_add_div (Nat.zero_lt_of_lt h), Nat.div_eq_of_lt hlt, Nat.add_zero]
  · rw [← hsum, Nat.mul_comm, Nat.mul_add_mod, Nat.mod_eq_of_lt hlt]

/-! ### The window of an output -/

/-- Below a new sample the window of `taps` samples reaches no deeper than the `taps - 1` samples a Decimator keeps. -/
theorem take_append_take_pred {new : List α} (h : new ≠ []) (old : List α) :
    (new ++ old.take (taps - 1)).take taps = (new ++ old).take taps := by
  have hpos := List.length_pos_iff.2 h
  rw [List.take_append, List.take_append, List.take_take, Nat.min_eq_left (by omega)]

/-- Output `m` sums the `taps` newest samples up to the input that completes its period. -/
theorem decimate_getElem? (ht : 1 ≤ taps) (hh : st.hist.length = taps - 1) (hp : st.phase < factor) {xs : List α} {m i : Nat}
    (hi : st.phase + i + 1 = factor * (m + 1)) (hlt : i < xs.length) :
    (decimate fir taps factor st xs).1[m]? = some (fir (((xs.take (i + 1)).reverse ++ st.hist).take taps)) := by
  induction xs generalizing st m i with
  | nil => exact absurd hlt (Nat.not_lt_zero i)
  | cons x xs ih =>
    /- The next input's window, written with the history that `x` leaves. -/
    have hwindow (j : Nat) (hj : j < xs.length) :
        ((xs.take (j + 1)).reverse ++ (x :: st.hist).take (taps - 1)).take taps =
          (((x :: xs).take (j + 1 + 1)).reverse ++ st.hist).take taps := by
      have hnew : (xs.take (j + 1)).reverse ≠ [] := by
        rw [← List.length_pos_iff, List.length_reverse, List.length_take]
        omega
      rw [take_append_take_pred hnew, List.take_succ_cons, List.reverse_cons, List.append_assoc, List.singleton_append]
    rw [List.length_cons] at hlt
    rw [Nat.mul_succ] at hi
    by_cases hlast : st.phase + 1 = factor
    · rw [decimate_cons_of_last fir hlast]
      cases m with
      | zero =>
        obtain rfl : i = 0 := by omega
        have hfull : (x :: st.hist).length ≤ taps := by rw [List.length_cons]; omega
        simp [List.take_of_length_le hfull]
      | succ m =>
        obtain ⟨i, rfl⟩ : ∃ j, i = j + 1 := ⟨i - 1, by rw [Nat.mul_succ] at hi; omega⟩
        rw [List.getElem?_cons_succ, ← hwindow i (by omega)]
        exact ih (length_take_cons x hh) (by dsimp only; omega) (by dsimp only; omega) (by omega)
    · obtain ⟨i, rfl⟩ : ∃ j, i = j + 1 := ⟨i - 1, by omega⟩
      rw [decimate_cons_of_more fir hlast, ← hwindow i (by omega)]
      exact ih (length_take_cons x hh) (by dsimp only; omega) (by dsimp only; rw [Nat.mul_succ]; omega) (by omega)

/-- Over a created history, the window up to input `i`, an input of negative index being the zero sample. -/
theorem take_reverse_append_replicate (ht : 1 ≤ taps) (zero : α) {xs : List α} {i : Nat} (hi : i < xs.length) :
    ((xs.take (i + 1)).reverse ++ List.replicate (taps - 1) zero).take taps =
      (List.range taps).map fun j => if j ≤ i then xs.getD (i - j) zero else zero := by
  have hlen : (xs.take (i + 1)).length = i + 1 := List.length_take_of_le hi
  refine List.ext_getElem (by simp; omega) fun j hj hj' => ?_
  rw [List.getElem_take, List.getElem_map, List.getElem_range]
  split
  next hji =>
    rw [List.getElem_append_left (by rw [List.length_reverse]; omega), List.getElem_reverse, List.getElem_take,
      List.getD_eq_getElem _ _ (by omega)]
    simp [hlen]
  next hji => rw [List.getElem_append_right (by rw [List.length_reverse]; omega), List.getElem_replicate]

end Decimator

/-- Settles O44: `decimate_append`, and what one call leaves by `decimate_length_phase` and `decimate_hist_length`. -/
theorem decimatorContinuity : Obligations.DecimatorContinuity := by
  intro α fir taps factor st x x' _ hphase hhist
  obtain ⟨hlength, hleft⟩ := decimate_length_phase fir (taps := taps) hphase x
  exact ⟨decimate_append fir x x', hlength, hleft, decimate_hist_length fir hhist x⟩

/-- Settles O43: the window of `decimate_getElem?` over the created history of zero samples. -/
theorem decimatorOutputTiming : Obligations.DecimatorOutputTiming := by
  intro α fir taps factor zero xs ht hf
  refine ⟨?_, fun m hm => ?_⟩
  · simpa using (decimate_length_phase fir (st := ⟨List.replicate (taps - 1) zero, 0⟩) hf xs).1
  · have hperiod : factor * (m + 1) ≤ xs.length :=
      (Nat.mul_le_mul_left factor hm).trans (Nat.mul_div_le xs.length factor)
    rw [Nat.mul_succ] at hperiod
    have hlast : factor * m + factor - 1 < xs.length := by omega
    rw [decimate_getElem? fir (i := factor * m + factor - 1) ht List.length_replicate hf
      (by dsimp only; rw [Nat.mul_succ]; omega) hlast]
    exact congrArg (some <| fir ·) (take_reverse_append_replicate ht zero hlast)

/-- A block written from element 0 on holds its elements, and the cells beyond it what they held. -/
theorem Memory.read_writeBlock_zero_cases {α : Type} (m : Memory α) (vs : List α) :
    (∀ k, k < vs.length → (m.writeBlock 0 vs).read k = vs[k]?) ∧
      ∀ k, vs.length ≤ k → (m.writeBlock 0 vs).read k = m.read k :=
  ⟨fun k hk => (m.read_writeBlock_zero k vs hk).trans (List.getElem?_eq_getElem hk).symm,
    fun k hk => m.read_writeBlock_outside 0 k vs (.inr (by rwa [Nat.zero_add]))⟩

/-- Settles O40: each is one block write of the outputs that Dec makes of what it read. -/
theorem decimateEffect : Obligations.DecimateEffect := by
  intro len s hlen
  refine ⟨fun src dst st hst => ⟨_, ?_, Memory.read_writeBlock_zero_cases (s.cbuf dst) _⟩,
    fun st hst => ⟨_, ?_, Memory.read_writeBlock_zero_cases s.buf.au _⟩⟩
  · rw [execDecimate0_of_present hlen hst rfl rfl]
    cases dst <;> rfl
  · rw [execDecimate1_of_present hlen hst rfl rfl]
    rfl

end Sys2Proof.Machine
end

section
/-! PROOFS. What WIN_APPLY, FFT_FWD and SPEC_POWER write, and when the first two are refused (43_spectrum R260 to R274). Settles O37,
O38 and O39. -/

namespace Sys2Proof.Machine

variable {s : State} {len : Len}

/-- `Memory.read_writeBlock_zero_cases` for a block of known length. -/
theorem Memory.read_writeBlock_zero_of_length {α : Type} (m : Memory α) {vs : List α} {n : Nat} (h : vs.length = n) :
    (∀ k, k < n → (m.writeBlock 0 vs).read k = vs[k]?) ∧ ∀ k, n ≤ k → (m.writeBlock 0 vs).read k = m.read k :=
  h ▸ m.read_writeBlock_zero_cases vs

/-! ### WIN_APPLY -/

theorem execWinApply_of_unlatched {dst : CBuf} (hlen : s.len len ≤ s.cfg.nmax) (hlat : s.seq.latWin = false) :
    exec (.winApply dst len) s = workerDone .ok 0 s := by
  simp only [exec, execWinApply, withLen_of_le s hlen, hlat, Bool.false_eq_true, if_false]

theorem execWinApply_of_mismatched {dst : CBuf} (hlen : s.len len ≤ s.cfg.nmax) (hlat : s.seq.latWin = true)
    (hwin : s.buf.winLen ≠ s.len len) : exec (.winApply dst len) s = abandonCycle 10 s := by
  simp only [exec, execWinApply, withLen_of_le s hlen, hlat, if_true, if_pos hwin]

theorem State.readWin_getElem?_of_read {n k : Nat} {c : F32} (hk : k < n) (h : s.buf.win.read k = some c) :
    (s.readWin n)[k]? = some c :=
  Memory.readBlock_getElem?_of_read _ hk (by rwa [Nat.zero_add])

/-- Settles O37: with a window of the length, one block write of the samples times their coefficients. -/
theorem winApplyOutcomes : Obligations.WinApplyOutcomes := by
  intro dst len s hlen
  refine ⟨execWinApply_of_unlatched hlen, execWinApply_of_mismatched hlen, fun hlat hwin => ?_⟩
  obtain ⟨hwritten, hkept⟩ := (s.cbuf dst).read_writeBlock_zero_of_length (n := s.len len)
    (vs := List.zipWith windowSample (s.readC dst (s.len len)) (s.readWin (s.len len))) (by simp)
  refine ⟨_, ?_, fun k x c hk hx hc => ?_, hkept⟩
  · rw [execWinApply_of_winLen hlen hwin rfl, if_pos hlat]
    cases dst <;> rfl
  · rw [hwritten k hk, List.getElem?_zipWith_eq_some]
    exact ⟨x, c, State.readC_getElem?_of_read hk hx, State.readWin_getElem?_of_read hk hc, rfl⟩

/-! ### FFT_FWD -/

/-- Within NMAX the supported sizes are the powers 2^j of positive exponent (43_spectrum R267). -/
theorem supported_iff_two_pow {nmax n : Nat} (hn : n ≤ nmax) : supported nmax n = true ↔ ∃ j, 1 ≤ j ∧ n = 2 ^ j := by
  rw [supported_iff, isPowerOfTwo, beq_iff_eq]
  constructor
  · rintro ⟨hpow, htwo, -⟩
    exact ⟨n.log2, (Nat.le_log2 (by omega)).2 htwo, hpow⟩
  · rintro ⟨j, hj, rfl⟩
    exact ⟨by rw [Nat.log2_two_pow], Nat.le_self_pow (by omega) 2, hn⟩

theorem execFftFwd_of_unsupported {b : CBuf} (hlen : s.len len ≤ s.cfg.nmax)
    (hsize : supported s.cfg.nmax (s.len len) = false) : exec (.fftFwd b len) s = abandonCycle 9 s := by
  simp only [exec, execFftFwd, withLen_of_le s hlen, hsize, Bool.false_eq_true, if_false]

/-- Settles O38: of a supported size, one block write of the transform, which is as long as what was read. -/
theorem fftFwdOutcomes : Obligations.FftFwdOutcomes := by
  intro buf len s hlen
  have hlength : (numDft (s.readC buf (s.len len))).length = s.len len := by simp
  refine ⟨fun hpow => ?_, fun hpow => execFftFwd_of_unsupported hlen ?_⟩
  · obtain ⟨hwritten, hkept⟩ := (s.cbuf buf).read_writeBlock_zero_of_length hlength
    refine ⟨_, ?_, fun k hk => ⟨?_, hwritten k hk⟩, hkept⟩
    · rw [execFftFwd_of_supported ((supported_iff_two_pow hlen).2 hpow) rfl]
      cases buf <;> rfl
    · rwa [hwritten k hk, isSome_getElem?, hlength]
  · rw [Bool.eq_false_iff, ne_eq, supported_iff_two_pow hlen]
    rintro ⟨j, hj, heq⟩
    exact hpow j hj heq

/-! ### SPEC_POWER -/

/-- After a commit's block write the bins below the length are those of the samples, the others as they were
(43_spectrum R270, R271). -/
theorem read_writeBlock_bins (s : State) (src : CBuf) (n : Nat) (m : Memory F32) (ofs : F32) :
    (∀ (k : Nat) (x : C32), k < n → (s.cbuf src).read k = some x →
      (m.writeBlock 0 ((s.readC src n).map (binDb ofs))).read k = some (binDb ofs x)) ∧
    ∀ k, n ≤ k → (m.writeBlock 0 ((s.readC src n).map (binDb ofs))).read k = m.read k := by
  obtain ⟨hwritten, hkept⟩ := m.read_writeBlock_zero_of_length (n := n) (vs := (s.readC src n).map (binDb ofs)) (by simp)
  refine ⟨fun k x hk hx => ?_, hkept⟩
  rw [hwritten k hk, List.getElem?_map, State.readC_getElem?_of_read hk hx, Option.map_some]

/-- Settles O39: each branch is one commit, whose bins `read_writeBlock_bins` reads. -/
theorem specPowerEffect : Obligations.SpecPowerEffect := fun src len s hlen =>
  ⟨⟨_, execSpecPower_of_le hlen rfl, read_writeBlock_bins s src (s.len len) s.buf.pwWb s.csr.wbOffset⟩,
    ⟨_, execSpecPower_of_le hlen rfl, read_writeBlock_bins s src (s.len len) s.buf.pwNb s.csr.nbOffset⟩⟩

end Sys2Proof.Machine
end

section
/-! PROOFS. What the demodulator and the audio filter return, over how many calls, and what FM_DEMOD and LPF do with it (44_fm_audio
R290 to R300). Settles O41, O42 and O45. -/

namespace Sys2Proof.Machine

/-! ### The demodulator -/

/-- Every output pairs a sample with the one before it, and the last sample is all that is kept (44_fm_audio R290, R291). -/
theorem demodulate_eq_zipWith (gain : F32) (prev : C32) (xs : List C32) :
    demodulate gain prev xs =
      (List.zipWith (fun x y => mul32 gain (numPhase x y)) xs (prev :: xs), xs.getLastD prev) := by
  induction xs generalizing prev with
  | nil => rfl
  | cons x xs ih => rw [demodulate, ih, List.zipWith_cons_cons, List.getLastD_cons]

theorem demodulate_append (gain : F32) (prev : C32) (x x' : List C32) :
    demodulate gain prev (x ++ x') =
      ((demodulate gain prev x).1 ++ (demodulate gain (demodulate gain prev x).2 x').1,
        (demodulate gain (demodulate gain prev x).2 x').2) := by
  induction x generalizing prev with
  | nil => rfl
  | cons a x ih => rw [List.cons_append, demodulate, demodulate, ih, List.cons_append]

/-- Settles O41: one block write of the outputs, which `demodulate_eq_zipWith` gives element by element. -/
theorem fmDemodEffect : Obligations.FmDemodEffect := by
  intro src len s prev hlen hprev
  obtain ⟨hwritten, hkept⟩ := s.buf.au.read_writeBlock_zero_of_length (n := s.len len)
    (vs := List.zipWith (fun x y => mul32 s.cfg.fmGain (numPhase x y)) (s.readC src (s.len len))
      (prev :: s.readC src (s.len len))) (by simp)
  refine ⟨_, ?_, fun k x y hx hy => ?_, hkept⟩
  · rw [execFmDemod_of_present hlen hprev rfl (demodulate_eq_zipWith ..)]
    rfl
  · have hk : k < s.len len := by
      obtain ⟨hk, -⟩ := List.getElem?_eq_some_iff.1 hx
      rwa [State.readC_length] at hk
    rw [hwritten k hk, List.getElem?_zipWith_eq_some]
    exact ⟨x, y, hx, hy, rfl⟩

/-! ### The audio filter -/

/-- The audio filter is a Decimator of factor 1, whose phase never leaves 0. -/
theorem lowPass_eq_decimate (h hist xs : List F32) :
    lowPass h hist xs =
      ((decimate (numFir h) h.length 1 ⟨hist, 0⟩ xs).1, (decimate (numFir h) h.length 1 ⟨hist, 0⟩ xs).2.hist) := by
  induction xs generalizing hist with
  | nil => rfl
  | cons x xs ih => rw [lowPass, ih, decimate_cons_of_last (numFir h) (factor := 1) (st := ⟨hist, 0⟩) rfl]

theorem lowPass_append (h hist x x' : List F32) :
    lowPass h hist (x ++ x') =
      ((lowPass h hist x).1 ++ (lowPass h (lowPass h hist x).2 x').1, (lowPass h (lowPass h hist x).2 x').2) := by
  induction x generalizing hist with
  | nil => rfl
  | cons a x ih => rw [List.cons_append, lowPass, lowPass, ih, List.cons_append]

theorem lowPass_getElem? {h hist xs : List F32} (hh : hist.length = h.length - 1) (ht : 1 ≤ h.length) {k : Nat}
    (hk : k < xs.length) :
    (lowPass h hist xs).1[k]? = some (numFir h (((xs.take (k + 1)).reverse ++ hist).take h.length)) := by
  rw [lowPass_eq_decimate]
  exact decimate_getElem? (numFir h) ht hh Nat.zero_lt_one (by dsimp only; omega) hk

theorem lowPass_hist {h hist : List F32} (hh : hist.length = h.length - 1) (xs : List F32) :
    (lowPass h hist xs).2 = (xs.reverse ++ hist).take (h.length - 1) := by
  induction xs generalizing hist with
  | nil => exact (List.take_of_length_le hh.le).symm
  | cons x xs ih =>
    calc (lowPass h ((x :: hist).take (h.length - 1)) xs).2
        = (xs.reverse ++ (x :: hist).take (h.length - 1)).take (h.length - 1) := ih (length_take_cons x hh)
      _ = (xs.reverse ++ x :: hist).take (h.length - 1) := by
        rw [List.take_append, List.take_append, List.take_take, Nat.min_eq_left (Nat.sub_le ..)]
      _ = ((x :: xs).reverse ++ hist).take (h.length - 1) := by rw [List.reverse_cons, List.append_assoc, List.singleton_append]

/-- Settles O42: one block write of the outputs, with the filter's sums by `lowPass_getElem?` and its history by `lowPass_hist`. -/
theorem lpfEffect : Obligations.LpfEffect := by
  intro len s hist hlen hlpf ht hh
  obtain ⟨hwritten, hkept⟩ := s.buf.au.read_writeBlock_zero_of_length (n := s.len len)
    (vs := (lowPass s.cfg.h2 hist (s.readAu (s.len len))).1) (by rw [lowPass_length, State.readAu_length])
  refine ⟨_, ?_, fun k hk => ?_, hkept⟩
  · rw [execLpf_of_present hlen hlpf rfl rfl, lowPass_hist hh]
    rfl
  · rw [hwritten k hk]
    exact lowPass_getElem? hh ht (by rwa [State.readAu_length])

/-! ### Consecutive calls -/

/-- Settles O45: the state is all that either takes over from the samples before it (44_fm_audio R292, R300). -/
theorem demodulatorAndFilterContinuity : Obligations.DemodulatorAndFilterContinuity :=
  ⟨fun gain prev x x' => ⟨demodulate_append gain prev x x', demodulate_length gain prev x⟩,
    fun h hist x x' => ⟨lowPass_append h hist x x', lowPass_length h hist x⟩⟩

end Sys2Proof.Machine
end

section
/-! PROOFS. What the two boundary ports answer and what they leave unchanged (45_ports R310 to R321). Settles O28, O29 and O30. -/

namespace Sys2Proof.Machine

variable {s : State}

/-! ### A pull from OQ -/

/-- Both channels carry the scaled sample (45_ports R310, R311). -/
theorem stereo_eq_flatMap (gain : F32) (xs : List F32) :
    stereo gain xs = xs.flatMap fun x => [mul32 gain x, mul32 gain x] := by
  induction xs with
  | nil => rfl
  | cons x xs ih => rw [stereo, ih, List.flatMap_cons, List.cons_append, List.singleton_append]

/-- A shorter read from the same cursor is a prefix of a longer one. -/
theorem ringRead_take {α : Type} (free : Nat → α) (cap : Nat) (m : Memory α) (at_ : Nat) {r n : Nat} (h : r ≤ n) :
    (ringRead free cap m at_ n).take r = ringRead free cap m at_ r := by
  rw [ringRead, ← List.map_take, List.take_range, Nat.min_eq_left h, ringRead]

/-- A pull within the view takes exactly the oldest samples (40_queue R181). -/
theorem State.readOq_of_le {n : Nat} (hopen : s.oq.isOpen = true) (hn : n ≤ s.oq.cv) (hcv : s.oq.cv ≤ s.oq.avail) :
    s.readOq n =
      { status := .ok
        out := s.oqItems.take n
        queue := { s.oq with
          rd := (s.oq.rd + n) % s.cfg.capOut
          avail := s.oq.avail - n
          cv := s.oq.cv - n
          pv := if s.cfg.queueView = .exact then s.cfg.capOut - (s.oq.avail - n) else s.oq.pv } } := by
  rw [State.readOq, queueRead_open n hopen, Nat.min_eq_left hn, State.oqItems, Queue.items,
    ringRead_take _ _ _ _ (hn.trans hcv)]

/-- An underrun keeps the samples in view or discards them all, as the parameter says (45_ports R314). -/
theorem State.underrunOq_eq (hopen : s.oq.isOpen = true) (hcv : s.oq.cv ≤ s.oq.avail) :
    s.underrunOq = s.setOq
      (if s.cfg.underrunConsume = .discard then { s.oq with
        rd := (s.oq.rd + s.oq.cv) % s.cfg.capOut
        avail := s.oq.avail - s.oq.cv
        cv := 0
        pv := if s.cfg.queueView = .exact then s.cfg.capOut - (s.oq.avail - s.oq.cv) else s.oq.pv }
      else s.oq) := by
  unfold State.underrunOq
  split
  next hkeep => rw [hkeep, if_neg UnderrunConsume.noConfusion]; rfl
  next hdiscard => rw [if_pos hdiscard, State.readOq_of_le hopen le_rfl hcv, Nat.sub_self]

theorem execAudPull_of_closed (frames : Nat) (h : s.oq.isOpen = false) :
    execAudPull frames s = .next (s.respond .a .closed frames (silence (2 * frames))) := if_pos h

theorem execAudPull_of_le {frames : Nat} (hopen : s.oq.isOpen = true) (h : frames ≤ s.oq.cv) :
    execAudPull frames s =
      .next ((s.setOq (s.readOq frames).queue).respond .a .ok frames (stereo s.cfg.audioGain (s.readOq frames).out)) := by
  rw [execAudPull, if_neg (ne_false_of_eq_true hopen), if_pos h]

theorem execAudPull_of_lt {frames : Nat} (hopen : s.oq.isOpen = true) (h : s.oq.cv < frames) :
    execAudPull frames s =
      .next (s.underrunOq.countUnderrun.respond .a .underrun frames (silence (2 * frames))) := by
  rw [execAudPull, if_neg (ne_false_of_eq_true hopen), if_neg h.not_ge]

/-- Settles O28: the three branches of the pull, the queue each leaves by `readOq_of_le` and `underrunOq_eq`. -/
theorem audPullOutcomes : Obligations.AudPullOutcomes := by
  intro frames s hcv
  refine ⟨fun hclosed => ?_, fun hopen hle => ?_, fun hopen hlt => ?_⟩
  · exact execAudPull_of_closed frames hclosed
  · rw [exec, execAudPull_of_le hopen hle, State.readOq_of_le hopen hle hcv, stereo_eq_flatMap]
    rfl
  · rw [exec, execAudPull_of_lt hopen hlt, State.underrunOq_eq hopen hcv]
    rfl

/-- Settles O29: closed and underrunning pulls are silent, and an empty queue serves only the pull of no frames. -/
theorem emptyPullIsSilence : Obligations.EmptyPullIsSilence := by
  intro frames s hempty hcv
  obtain ⟨hclosed, hserved, hunderrun⟩ := audPullOutcomes frames s hcv
  have hsilent : ∀ x ∈ List.replicate (2 * frames) (0x00000000 : Word), x = 0x00000000 := fun _ => List.eq_of_mem_replicate
  cases hopen : s.oq.isOpen with
  | false => exact ⟨_, _, _, hclosed hopen, rfl, List.length_replicate, hsilent⟩
  | true =>
    rcases Nat.lt_or_ge s.oq.cv frames with hlt | hle
    · exact ⟨_, _, _, hunderrun hopen hlt, rfl, List.length_replicate, hsilent⟩
    · obtain rfl : frames = 0 := by omega
      exact ⟨_, _, _, hserved hopen hle, rfl, rfl, fun _ hx => absurd hx List.not_mem_nil⟩

/-! ### A snapshot -/

/-- A bin that holds a value is read as it is stored (45_ports R318). -/
theorem State.readPower_getElem?_of_read {p : PowerBuf} {n k : Nat} {v : F32} (hk : k < n)
    (h : (s.powerBins p).read k = some v) : (s.readPower p n)[k]? = some v := by
  cases p <;> exact Memory.readBlock_getElem?_of_read _ hk (by rwa [Nat.zero_add])

theorem execSnapRead_of_invalid {p : PowerBuf} (count : Nat) (h : s.powerValid p = false) :
    execSnapRead p count s = .next (s.respond .s .notReady 0 []) := if_pos h

theorem execSnapRead_of_lt {p : PowerBuf} {count : Nat} (hvalid : s.powerValid p = true)
    (h : s.powerLen p < s.snapCount p count) :
    execSnapRead p count s = .next ((s.setSticky .addr).respond .s .addrError 0 []) := by
  rw [execSnapRead, if_neg (ne_false_of_eq_true hvalid), if_pos h, addrError_eq]

theorem execSnapRead_of_le {p : PowerBuf} {count : Nat} (hvalid : s.powerValid p = true)
    (h : s.snapCount p count ≤ s.powerLen p) :
    execSnapRead p count s =
      .next (s.respond .s .ok (s.snapCount p count) (s.readPower p (s.snapCount p count))) := by
  rw [execSnapRead, if_neg (ne_false_of_eq_true hvalid), if_neg h.not_gt]

/-- Settles O30: the three branches of the snapshot, the bins answered by `readPower_getElem?_of_read`. -/
theorem snapReadOutcomes : Obligations.SnapReadOutcomes := fun p count s =>
  ⟨execSnapRead_of_invalid count, execSnapRead_of_lt, fun hvalid hle =>
    ⟨s.readPower p (s.snapCount p count), s.readPower_length p _, fun _ _ => State.readPower_getElem?_of_read,
      execSnapRead_of_le hvalid hle⟩⟩

end Sys2Proof.Machine
end

section
/-! PROOFS. The CSR map (10_state R50): what a read and a write of each address does, and STATUS bit by bit
(46_control R350 to R357). Settles O24, O25 and O26. -/

namespace Sys2Proof.Machine

variable {s : State}

/-- The registers of 10_state R50, in the order of the map. -/
def Csr.all : List Csr :=
  [.id, .ctrl, .status, .nFft, .decD, .audD2, .inRate, .outRate, .audRate, .audioBufMs, .gainConst, .userOffset,
   .specScale, .dispRange, .wbOffset, .nbOffset, .iqCap, .iqAvail, .iqWr, .iqRd, .oqCap, .oqAvail, .oqWr, .oqRd,
   .cntQfullIn, .cntDropIn, .cntQfullOut, .cntDropOut, .cntUnderrun, .cntCycles, .audioGain, .lastLenWb, .lastLenNb, .nmax]

theorem Csr.mem_all (r : Csr) : r ∈ Csr.all := by cases r <;> decide

/-- Every assigned address is aligned and at most 0x084 (10_state R50, 20_memory R104). -/
theorem Csr.addr_bounds (r : Csr) : r.addr.extractLsb' 0 2 = 0 ∧ r.addr ≤ 0x084 := by cases r <;> decide

theorem ofAddr_eq_none_iff {addr : BitVec 12} : Csr.ofAddr addr = none ↔ ∀ r : Csr, r.addr ≠ addr := by
  constructor
  · rintro h r rfl
    rw [csr_ofAddr_addr] at h
    exact Option.some_ne_none r h
  · intro h
    cases hr : Csr.ofAddr addr with
    | none => rfl
    | some r => exact absurd (addr_of_ofAddr hr).symm (h r)

/-! ### CSR_READ -/

theorem exec_csrRead_addr (r : Csr) : exec (.csrRead r.addr) s = .next (s.respond .h .ok 0 [s.csrValue r]) := by
  simp only [exec, execCsrRead, csr_ofAddr_addr]

theorem exec_csrRead_unassigned {addr : BitVec 12} (h : Csr.ofAddr addr = none) :
    exec (.csrRead addr) s = .next ((s.setSticky .addr).respond .h .addrError 0 []) := by
  simp only [exec, execCsrRead, h, addrError_eq]

/-- OUT_RATE as 10_state R55 gives it. -/
theorem csrValue_outRate : s.csrValue .outRate = if s.csr.decD = 0 then 0 else s.csr.inRate / s.csr.decD := by
  apply BitVec.eq_of_toNat_eq
  have hlt : s.csr.inRate.toNat / s.csr.decD.toNat < 2 ^ 32 := (Nat.div_le_self _ _).trans_lt s.csr.inRate.isLt
  simp only [State.csrValue, State.outRate, BitVec.toNat_ofNat, Nat.mod_eq_of_lt hlt]
  split
  next h => simp [h]
  next => rw [BitVec.toNat_udiv]

/-- AUD_RATE as 10_state R55 gives it. -/
theorem csrValue_audRate : s.csrValue .audRate = if s.csr.decD = 0 ∨ s.csr.audD2 = 0 then 0
    else BitVec.ofNat 32 (s.csr.inRate.toNat / (s.csr.decD.toNat * s.csr.audD2.toNat)) := by
  split
  next h => rcases h with h | h <;> simp [State.csrValue, State.audRate, h]
  next => rfl

/-- Settles O24: the map is that of `Csr.addr` and `State.csrValue`, and an address outside it is assigned to no register. -/
theorem csrReadMap : Obligations.CsrReadMap := by
  intro s map
  have hmap : map = Csr.all.map fun r => (r.addr, s.csrValue r) := by
    simp only [Csr.all, List.map_cons, List.map_nil, csrValue_outRate, csrValue_audRate]
    rfl
  rw [hmap]
  refine ⟨List.forall_mem_map.2 fun r _ => exec_csrRead_addr r, fun addr h => ?_⟩
  exact exec_csrRead_unassigned (ofAddr_eq_none_iff.2 fun r => List.forall_mem_map.1 h r r.mem_all)

/-! ### CSR_WRITE, its checks in the order of 60_exceptions R383 -/

variable {v : Word}

theorem exec_csrWrite_unassigned {addr : BitVec 12} (h : Csr.ofAddr addr = none) :
    exec (.csrWrite addr v) s = .next ((s.setSticky .addr).respond .h .addrError 0 []) := by
  simp only [exec, execCsrWrite, h, addrError_eq]

theorem exec_csrWrite_ro {r : Csr} (h : r.access = .ro) :
    exec (.csrWrite r.addr v) s = .next ((s.setSticky .illegal).respond .h .illegal 0 []) := by
  simp only [exec, execCsrWrite, csr_ofAddr_addr, h, if_true, illegal_eq]

theorem exec_csrWrite_busy {r : Csr} (h : r.access = .rwStopped) (hs : s.ses.sess ≠ .stopped) :
    exec (.csrWrite r.addr v) s = .next (s.respond .h .busy 0 []) := by
  simp [exec, execCsrWrite, csr_ofAddr_addr, h, hs, raise_eq]

theorem exec_csrWrite_stored {r : Csr} (h : r.access ≠ .ro) (hs : r.access = .rwStopped → s.ses.sess = .stopped) :
    exec (.csrWrite r.addr v) s = .next ((s.csrStore r v).respond .h .ok 0 []) := by
  have hbusy : ¬ (r.access = .rwStopped ∧ s.ses.sess ≠ .stopped) := fun ⟨hr, hne⟩ => hne (hs hr)
  simp only [exec, execCsrWrite, csr_ofAddr_addr, h, hbusy, if_false]

/-- The registers of type RO in 10_state R50. -/
def Csr.readOnly : List Csr :=
  [.id, .outRate, .audRate, .wbOffset, .nbOffset, .iqCap, .iqAvail, .iqWr, .iqRd, .oqCap, .oqAvail, .oqWr, .oqRd,
   .audioGain, .lastLenWb, .lastLenNb, .nmax]

/-- The registers of type RW-stopped in 10_state R50. -/
def Csr.writableStopped : List Csr := [.nFft, .decD, .audD2, .inRate, .audioBufMs, .gainConst]

theorem access_of_mem_readOnly : ∀ r ∈ Csr.readOnly, r.access = .ro := by decide

theorem access_of_mem_writableStopped : ∀ r ∈ Csr.writableStopped, r.access = .rwStopped := by decide

theorem exec_csrWrite_live {r : Csr} (h : r.access ≠ .ro) (hs : r.access ≠ .rwStopped) :
    exec (.csrWrite r.addr v) s = .next ((s.csrStore r v).respond .h .ok 0 []) :=
  exec_csrWrite_stored h fun h' => absurd h' hs

/-- Settles O25: each check by its lemma, and a register that passes them takes what `State.csrStore` gives it. -/
theorem csrWriteEffect : Obligations.CsrWriteEffect := by
  intro s v ok
  refine ⟨fun addr h => exec_csrWrite_unassigned (ofAddr_eq_none_iff.2 ?_), ?_, fun hs => ?_, fun hs => ?_, ?_⟩
  · rintro r rfl
    obtain ⟨haligned, hle⟩ := r.addr_bounds
    exact h.elim (absurd haligned) fun hlt => absurd hle (BitVec.not_le.2 hlt)
  · exact List.forall_mem_map (l := Csr.readOnly) (f := Csr.addr).2 fun r hr => exec_csrWrite_ro (access_of_mem_readOnly r hr)
  · exact List.forall_mem_map (l := Csr.writableStopped) (f := Csr.addr).2 fun r hr =>
      exec_csrWrite_busy (access_of_mem_writableStopped r hr) hs
  · have stored (r : Csr) (h : r.access ≠ .ro) := exec_csrWrite_stored (v := v) h fun _ => hs
    exact ⟨stored .nFft (by decide), stored .decD (by decide), stored .audD2 (by decide), stored .inRate (by decide),
      stored .audioBufMs (by decide), stored .gainConst (by decide)⟩
  · have stored (r : Csr) := exec_csrWrite_live (r := r) (s := s) (v := v)
    exact ⟨stored .ctrl (by decide) (by decide), stored .status (by decide) (by decide),
      stored .userOffset (by decide) (by decide), stored .specScale (by decide) (by decide),
      stored .dispRange (by decide) (by decide), stored .cntQfullIn (by decide) (by decide),
      stored .cntDropIn (by decide) (by decide), stored .cntQfullOut (by decide) (by decide),
      stored .cntDropOut (by decide) (by decide), stored .cntUnderrun (by decide) (by decide),
      stored .cntCycles (by decide) (by decide)⟩

/-! ### STATUS -/

/-- The bits of STATUS, bit 0 first (10_state R53, 46_control R351). -/
def State.statusBitList (s : State) : List Bool :=
  let k := s.csr.sticky
  let c := s.csr.cfgCause
  [decide (s.ses.sess ≠ .stopped), decide (s.ses.sess = .stopping), decide (s.seq.wstate = .active), s.iq.isOpen, s.oq.isOpen,
   s.buf.wbValid, s.buf.nbValid, false, k.qfullIn, k.qfullOut, k.underrun, k.devfault, k.config, k.illegal, k.addr, false,
   c.getLsbD 0, c.getLsbD 1, c.getLsbD 2, c.getLsbD 3]

theorem statusBitList_getD_of_ge (s : State) {i : Nat} (h : 20 ≤ i) : s.statusBitList.getD i false = false :=
  List.getD_eq_default _ _ h

theorem toNat_eq_sum_bits (c : BitVec 4) :
    c.toNat = (c.getLsbD 0).toNat + 2 * (c.getLsbD 1).toNat + 4 * (c.getLsbD 2).toNat + 8 * (c.getLsbD 3).toNat := by
  revert c
  decide

theorem statusWord_eq_statusBitList (s : State) : statusWord s = (BitVec.ofBoolListLE s.statusBitList).setWidth 32 := by
  apply BitVec.eq_of_toNat_eq
  have hnil : (BitVec.ofBoolListLE []).toNat = 0 := rfl
  have hcons (b : Bool) (bs : List Bool) :
      (BitVec.ofBoolListLE (b :: bs)).toNat = (BitVec.ofBoolListLE bs).toNat * 2 + b.toNat := BitVec.toNat_concat ..
  have hrunning : s.isRunning = decide (s.ses.sess ≠ .stopped) := by rw [State.isRunning]; cases s.ses.sess <;> rfl
  simp only [statusWord, hrunning, beq_eq_decide, toNat_eq_sum_bits s.csr.cfgCause, State.statusBitList, BitVec.toNat_ofNat,
    BitVec.toNat_setWidth, hcons, hnil, Bool.toNat_false]
  omega

theorem getLsbD_statusWord (s : State) (i : Nat) : (statusWord s).getLsbD i = s.statusBitList.getD i false := by
  rw [statusWord_eq_statusBitList, BitVec.getLsbD_setWidth, BitVec.getLsbD_ofBoolListLE]
  rcases Nat.lt_or_ge i 32 with hi | hi
  · rw [decide_eq_true hi, Bool.true_and]
  · rw [statusBitList_getD_of_ge s (by omega), Bool.and_false]

/-- What a write of `v` to STATUS leaves of each bit (10_state R53). -/
theorem statusBitList_clearStatus (s : State) (v : Word) (i : Nat) : (s.clearStatus v).statusBitList.getD i false =
    if 8 ≤ i ∧ i ≤ 14 then s.statusBitList.getD i false && !v.getLsbD i
    else if 16 ≤ i ∧ i ≤ 19 then s.statusBitList.getD i false && !v.getLsbD 12
    else s.statusBitList.getD i false := by
  have hcause (k : Nat) : (s.clearStatus v).csr.cfgCause.getLsbD k = (s.csr.cfgCause.getLsbD k && !v.getLsbD 12) := by
    simp only [State.clearStatus, State.setCsr_csr]
    cases v.getLsbD 12 <;> simp
  obtain hi | hi | hi : i < 16 ∨ (16 ≤ i ∧ i < 20) ∨ 20 ≤ i := by omega
  · interval_cases i <;> rfl
  · obtain ⟨hge, hlt⟩ := hi
    interval_cases i <;> exact hcause _
  · rw [if_neg (by omega), if_neg (by omega), statusBitList_getD_of_ge _ hi, statusBitList_getD_of_ge _ hi]

/-- Settles O26: STATUS is the word of `State.statusBitList`, whose bits a write changes as `statusBitList_clearStatus` says. -/
theorem statusBits : Obligations.StatusBits := by
  refine ⟨fun s i => ?_, fun s t v i ht => ?_⟩
  · rw [getLsbD_statusWord]
    rcases Nat.lt_or_ge i 20 with hi | hi
    · interval_cases i <;> rfl
    · rw [statusBitList_getD_of_ge s hi]
      obtain ⟨k, rfl⟩ := Nat.exists_eq_add_of_le' hi
      rfl
  · cases ht
    simp only [getLsbD_statusWord]
    exact statusBitList_clearStatus s v i
end Sys2Proof.Machine
end

section
/-! PROOFS. ACQ_START, ACQ_STOP, DEV_FAULT and the stop completion (46_control R330 to R360), and what each command does to the
session state (R365). Settles O17, O18, O19, O21, O22 and O23. -/

namespace Sys2Proof.Machine

variable {s : State}

/-! ### ConfigCheck -/

open Classical in
/-- The place of the first proposition that holds, counted from `n`, 0 where none does: how 46_control R333 numbers causes. -/
noncomputable def firstCause (n : Nat) : List Prop → Nat
  | [] => 0
  | c :: cs => if c then n else firstCause (n + 1) cs

theorem firstCause_cons_of_pos {n : Nat} {c : Prop} (cs : List Prop) (h : c) : firstCause n (c :: cs) = n := if_pos h

theorem firstCause_cons_of_neg {n : Nat} {c : Prop} (cs : List Prop) (h : ¬ c) :
    firstCause n (c :: cs) = firstCause (n + 1) cs := if_neg h

theorem firstCause_eq_zero_iff {n : Nat} (hn : 0 < n) (cs : List Prop) : firstCause n cs = 0 ↔ ∀ c ∈ cs, ¬ c := by
  induction cs generalizing n with
  | nil => simp [firstCause]
  | cons c cs ih =>
    rw [List.forall_mem_cons]
    by_cases h : c
    · rw [firstCause_cons_of_pos cs h]
      exact ⟨fun h0 => absurd h0 hn.ne', fun hall => absurd h hall.1⟩
    · rw [firstCause_cons_of_neg cs h, ih n.succ_pos, and_iff_right h]

theorem le_firstCause (n : Nat) (cs : List Prop) : firstCause n cs = 0 ∨ n ≤ firstCause n cs := by
  induction cs generalizing n with
  | nil => exact .inl rfl
  | cons c cs ih =>
    by_cases h : c
    · exact .inr (firstCause_cons_of_pos cs h).ge
    · rw [firstCause_cons_of_neg cs h]
      exact (ih (n + 1)).imp_right (Nat.le_trans n.le_succ)

theorem firstCause_eq_iff {n : Nat} (hn : 0 < n) (cs : List Prop) (k : Nat) : firstCause n cs = k + n ↔
    (∃ c, cs[k]? = some c ∧ c) ∧ ∀ (j : Nat) (c : Prop), j < k → cs[j]? = some c → ¬ c := by
  induction cs generalizing n k with
  | nil =>
    refine iff_of_false (fun h => ?_) (by simp)
    rw [firstCause] at h
    omega
  | cons c cs ih =>
    by_cases h : c
    · rw [firstCause_cons_of_pos cs h]
      cases k with
      | zero => exact iff_of_true n.zero_add.symm ⟨⟨c, rfl, h⟩, fun _ _ hj => absurd hj (Nat.not_lt_zero _)⟩
      | succ k =>
        refine iff_of_false (by omega) fun ⟨_, hbefore⟩ => hbefore 0 c k.succ_pos rfl h
    · rw [firstCause_cons_of_neg cs h]
      cases k with
      | zero =>
        refine iff_of_false (fun heq => ?_) (by simp [h])
        rcases le_firstCause (n + 1) cs with h0 | hle <;> omega
      | succ k =>
        rw [show k + 1 + n = k + (n + 1) by omega, ih n.succ_pos]
        simp only [List.getElem?_cons_succ]
        refine and_congr_right fun _ => ⟨fun hbefore j d hj => ?_, fun hbefore j d hj => hbefore (j + 1) d (by omega)⟩
        cases j with
        | zero => rintro ⟨⟩; exact h
        | succ j => exact hbefore j d (by omega)

theorem isPowerOfTwo_eq_false_iff (n : Nat) : isPowerOfTwo n = false ↔ ∀ j, n ≠ 2 ^ j := by
  rw [isPowerOfTwo, beq_eq_false_iff_ne]
  refine ⟨fun h j hj => h ?_, fun h => h _⟩
  rw [hj, Nat.log2_two_pow]

/-- One more check before those already numbered. -/
theorem ite_eq_firstCause {n x : Nat} {c d : Prop} [Decidable c] {cs : List Prop} (hcd : c ↔ d)
    (hx : x = firstCause (n + 1) cs) : (if c then n else x) = firstCause n (d :: cs) := by
  split
  next hc => rw [firstCause_cons_of_pos cs (hcd.1 hc)]
  next hc => rw [firstCause_cons_of_neg cs (mt hcd.2 hc), hx]

theorem configCheck_eq_firstCause (s : State) : s.configCheck = firstCause 1
    [ (∀ j, s.csr.nFft.toNat ≠ 2 ^ j) ∨ s.csr.nFft.toNat < 2 ∨ s.cfg.nmax < s.csr.nFft.toNat
    , s.csr.decD.toNat = 0 ∨ s.csr.nFft.toNat % s.csr.decD.toNat ≠ 0
    , s.csr.nFft.toNat / s.csr.decD.toNat < 2
    , s.csr.audD2.toNat = 0 ∨ s.csr.nFft.toNat / s.csr.decD.toNat % s.csr.audD2.toNat ≠ 0
    , s.cfg.capIn < s.csr.nFft.toNat
    , s.cfg.capOut < s.csr.nFft.toNat / s.csr.decD.toNat / s.csr.audD2.toNat
    , s.csr.inRate.toNat = 0
    , s.csr.audioBufMs.toNat = 0 ∨ s.framesPerPull = 0 ∨ s.cfg.capOut < s.framesPerPull ] := by
  refine ite_eq_firstCause (or_congr_left (isPowerOfTwo_eq_false_iff _)) ?_
  iterate 7 refine ite_eq_firstCause .rfl ?_
  rfl

/-- Settles O18: ConfigCheck is a `firstCause`, and the model's F_pull is that of the table, a rate of 0 by division by 0. -/
theorem configCheckFirstCause : Obligations.ConfigCheckFirstCause := by
  intro s n d d2 rate pull causes
  have hrate : rate = s.audRate := by
    simp only [rate]
    split
    next h => rw [State.audRate, h, Nat.div_zero]
    next => rfl
  have hpull : s.framesPerPull = pull := by rw [State.framesPerPull, ← hrate]
  have hcheck : s.configCheck = firstCause 1 causes := by rw [configCheck_eq_firstCause, hpull]
  rw [hcheck]
  exact ⟨firstCause_eq_zero_iff one_pos causes, fun k _ => firstCause_eq_iff one_pos causes k⟩

/-! ### ACQ_START -/

theorem execAcqStart_busy (h : s.ses.sess ≠ .stopped) : exec .acqStart s = .next (s.respond .h .busy 0 []) := if_pos h

theorem execAcqStart_refused (h : s.ses.sess = .stopped) (hc : s.configCheck ≠ 0) :
    exec .acqStart s = .next ((s.setConfigError (BitVec.ofNat 4 s.configCheck)).respond .h .configError 0 []) := by
  rw [exec, execAcqStart, if_neg (not_not_intro h), if_pos hc, raise_eq]

theorem execAcqStart_started (h : s.ses.sess = .stopped) (hc : s.configCheck = 0) :
    exec .acqStart s = .next (s.startSession.respond .h .ok 0 []) := by
  rw [exec, execAcqStart, if_neg (not_not_intro h), if_neg (not_not_intro hc)]

@[simp] theorem windowFor_length (n : Nat) : (windowFor n).length = n := by simp [windowFor]

/-- The window holds its coefficients up to its length (10_state R63) and no value from there on (43_spectrum R261). -/
theorem read_window (n i : Nat) :
    Memory.read (cellsFrom 0 (windowFor n)) i = if i < n then some (Config.windowFn i n) else none := by
  split
  next h =>
    have hi : i < (windowFor n).length := by rwa [windowFor_length]
    have hvalue : (windowFor n)[i] = Config.windowFn i n := by simp [windowFor, numWindow]
    rw [← hvalue, ← read_cellsFrom_inside 0 i _ hi, Nat.zero_add]
  next h => exact read_cellsFrom_outside 0 i _ (.inr (by rw [windowFor_length]; omega))

/-- Settles O17: the three ends of ACQ_START; what a started session's window holds is `read_window`. -/
theorem acqStartOutcomes : Obligations.AcqStartOutcomes := fun s =>
  ⟨execAcqStart_busy, execAcqStart_refused, fun h hc =>
    ⟨cellsFrom 0 (windowFor s.csr.nFft.toNat), execAcqStart_started h hc,
      fun n hn => (read_window _ n).trans (if_pos hn), fun n hn => (read_window _ n).trans (if_neg hn.not_gt)⟩⟩

theorem SessionInv.sM_le_sN (h : SessionInv s) : s.ses.sM ≤ s.ses.sN :=
  h.mExact ▸ Nat.le_mul_of_pos_right _ h.sD_pos

theorem SessionInv.sK_le_sM (h : SessionInv s) : s.ses.sK ≤ s.ses.sM :=
  h.kExact ▸ Nat.le_mul_of_pos_right _ h.sD2_pos

/-- Settles O19: a started session meets `SessionInv`. -/
theorem startedSessionIsWellFormed : Obligations.StartedSessionIsWellFormed := by
  intro s t hs hc ht
  rw [execAcqStart_started hs hc] at ht
  cases ht
  have h := sessionInv_startSession hc
  exact ⟨(supported_iff_two_pow h.sN_le).1 h.supportN, (supported_iff_two_pow h.sM_le).1 h.supportM, h.sN_le, h.mExact,
    h.kExact, h.kLow, h.sK_le_sM, h.sM_le_sN, h.fitsIn, h.fitsOut, h.winLen⟩

/-! ### The stop sequence -/

/-- Settles O21: both commands run `State.beginStop`, by the session's state. -/
theorem stopCommandsEffect : Obligations.StopCommandsEffect := by
  intro s
  refine ⟨fun h => ⟨?_, ?_⟩, fun h => ⟨?_, ?_⟩⟩
  · rw [exec, execAcqStop, s.beginStop_of_running h]; rfl
  · rw [exec, execDevFault, (s.setSticky .devfault).beginStop_of_running h]; rfl
  · rw [exec, execAcqStop, s.beginStop_of_not_running h]; rfl
  · rw [exec, execDevFault, (s.setSticky .devfault).beginStop_of_not_running h]; rfl

theorem runControl_of_enabled (h : s.ses.sess = .stopping ∧ s.seq.wstate = .exited) :
    runControl s = .next s.stopComplete := if_pos ((stopEnabled_iff s).2 h)

theorem runControl_of_disabled (h : ¬ (s.ses.sess = .stopping ∧ s.seq.wstate = .exited)) : runControl s = .next s :=
  if_neg (mt (stopEnabled_iff s).1 h)

/-- Settles O22: the stop completion where it is enabled, rest elsewhere. -/
theorem stopCompletionEffect : Obligations.StopCompletionEffect := fun _ => ⟨runControl_of_enabled, runControl_of_disabled⟩

/-! ### What each command leaves of the session -/

/-- ACQ_START where it begins a session (46_control R365). -/
def StartsSession (i : Instr) (s : State) : Prop := i = .acqStart ∧ s.ses.sess = .stopped ∧ s.configCheck = 0

/-- ACQ_STOP or DEV_FAULT where it begins the stop sequence (46_control R365). -/
def BeginsStop (i : Instr) (s : State) : Prop := (i = .acqStop ∨ i = .devFault) ∧ s.ses.sess = .running

/-- The session and the sequencer are as they were. -/
def KeepsSession (s t : State) : Prop := t.ses = s.ses ∧ t.seq = s.seq

theorem keepsSession_beginStop (h : s.ses.sess ≠ .running) : KeepsSession s s.beginStop := by
  rw [s.beginStop_of_not_running h]
  exact ⟨rfl, rfl⟩

theorem keepsSession_csrStore (r : Csr) (v : Word) : KeepsSession s (s.csrStore r v) := by cases r <;> exact ⟨rfl, rfl⟩

/-- A command of an external port that makes no transition keeps the session and the sequencer. -/
theorem exec_keepsSession {i : Instr} (hp : i.port ≠ .w) (hstart : ¬ StartsSession i s) (hstop : ¬ BeginsStop i s) :
    Ensures (exec i s) (KeepsSession s) := by
  cases i with
  | acqStart =>
    simp only [exec, execAcqStart, ensures_ite, ensures_raise, ensures_next, Decidable.not_not]
    exact ⟨fun _ => ⟨rfl, rfl⟩, fun hs => ⟨fun _ => ⟨rfl, rfl⟩, fun hc => absurd ⟨rfl, hs, hc⟩ hstart⟩⟩
  | acqStop => exact ensures_next.2 (keepsSession_beginStop fun h => hstop ⟨.inl rfl, h⟩)
  | devFault => exact ensures_next.2 (keepsSession_beginStop (s := s.setSticky .devfault) fun h => hstop ⟨.inr rfl, h⟩)
  | qwriteIq => simp only [exec, execQwriteIq]; split <;> exact ensures_next.2 ⟨rfl, rfl⟩
  | qavail => exact ensures_next.2 ⟨rfl, rfl⟩
  | qopen => simp [exec, execQopen, KeepsSession]
  | qclose => simp [exec, execQclose, KeepsSession]
  | csrRead => simp only [exec, execCsrRead]; split <;> exact ensures_next.2 ⟨rfl, rfl⟩
  | csrWrite addr v =>
    simp only [exec, execCsrWrite]
    split
    · exact ensures_next.2 ⟨rfl, rfl⟩
    next r _ =>
      simp only [ensures_ite, ensures_illegal, ensures_raise, ensures_next]
      exact ⟨fun _ => ⟨rfl, rfl⟩, fun _ => ⟨fun _ => ⟨rfl, rfl⟩, fun _ => keepsSession_csrStore r v⟩⟩
  | audPull =>
    simp only [exec, execAudPull, ensures_ite, ensures_next]
    refine ⟨fun _ => ⟨rfl, rfl⟩, fun _ => ⟨fun _ => ⟨rfl, rfl⟩, fun _ => ?_⟩⟩
    unfold State.underrunOq
    split <;> exact ⟨rfl, rfl⟩
  | snapRead => simp [exec, execSnapRead, KeepsSession]
  | _ => exact absurd rfl hp

/-- A micro-operation never writes the session. -/
theorem exec_ses_of_port_w {i : Instr} (hp : i.port = .w) : Ensures (exec i s) fun t => t.ses = s.ses := by
  have hrefused : Ensures (illegal .w s) fun t => t.ses = s.ses := ensures_next.2 rfl
  cases i with
  | seqTop => simp [exec, execSeqTop]
  | seqWait => simp [exec, execSeqWait]
  | seqLatch => exact ensures_next.2 rfl
  | seqJshort => simp [exec, execSeqJshort]
  | seqEnd => exact ensures_next.2 rfl
  | qread | winApply | fftFwd | specPower =>
    simp only [exec, execQread, execWinApply, execFftFwd, execSpecPower]
    refine ensures_withLen hrefused fun n => ?_
    simp
  | decimate0 | decimate1 | fmDemod | lpf =>
    simp only [exec, execDecimate0, execDecimate1, execFmDemod, execLpf]
    refine ensures_withLen hrefused fun n => ?_
    split <;> simp
  | qwriteOq =>
    simp only [exec, execQwriteOq]
    refine ensures_withLen hrefused fun n => ?_
    split <;> simp
  | bufCopy =>
    simp only [exec, execBufCopy]
    refine ensures_withLen hrefused fun n => ?_
    unfold copyBuffer
    split
    · simp only [ensures_workerDone]
      split <;> simp
    all_goals exact ensures_next.2 rfl
  | _ => cases hp

theorem exec_ses {i : Instr} (hstart : ¬ StartsSession i s) (hstop : ¬ BeginsStop i s) :
    Ensures (exec i s) fun t => t.ses = s.ses := by
  by_cases hp : i.port = .w
  · exact exec_ses_of_port_w hp
  · exact (exec_keepsSession hp hstart hstop).mono fun t ht => ht.1

theorem BeginsStop.sess {i : Instr} (h : BeginsStop i s) : Ensures (exec i s) fun t => t.ses.sess = .stopping := by
  obtain ⟨hstop | hfault, hr⟩ := h
  · subst hstop
    simp [exec, execAcqStop, s.beginStop_of_running hr]
  · subst hfault
    simp [exec, execDevFault, (s.setSticky .devfault).beginStop_of_running hr]

/-- On the stop signal SEQ_TOP ends the loop (41_worker R210). -/
theorem execSeqTop_of_stopReq (h : s.ses.stopReq = true) : exec .seqTop s =
    .next ((s.forgetWork.setSeq { s.seq with wstate := .exited }).respond .w .ok 0 []) := by
  rw [exec, execSeqTop, if_pos h]

/-- Settles O23: a command makes one of the two transitions, or `exec_ses` keeps the session. -/
theorem sessionTransitions : Obligations.SessionTransitions := by
  intro s
  refine ⟨fun i t ht => ?_, fun t ht => ?_, fun q cv pv t ht => ?_, fun hstop => ?_⟩
  · split
    next hstart =>
      obtain ⟨rfl, hs, hc⟩ := hstart
      cases (execAcqStart_started hs hc).symm.trans ht
      rfl
    next hstart =>
      split
      next hstop => exact BeginsStop.sess hstop t ht
      next hstop => exact congrArg Session.sess (exec_ses hstart hstop t ht)
  · split
    next h => cases (runControl_of_enabled h).symm.trans ht; rfl
    next h => cases (runControl_of_disabled h).symm.trans ht; rfl
  · cases q <;> cases ht <;> rfl
  · exact ⟨_, execSeqTop_of_stopReq hstop, rfl, rfl⟩

end Sys2Proof.Machine
end

section
/-! PROOFS. The stop sequence ends (41_worker R234, 46_control R347): in a stopping session each turn of the worker brings it
nearer its exit, and no other turn takes it away from there. Settles O53. -/

namespace Sys2Proof.Machine

variable {s t u : State}

/-! ### The rank -/

/-- How many turns an ACTIVE worker takes to its exit, once stopping: on from micro-address 4 to the cycle's end, before it to
the SEQ_JSHORT that takes a short block back to SEQ_TOP (41_worker R229). -/
def exitDistance (upc : Nat) (short : Bool) : Nat :=
  match upc with
  | 0 => 1
  | 1 => 4
  | 2 => 3
  | 3 => if short then 2 else 15
  | k => 18 - k

theorem exitDistance_bounds : ∀ k < 17, ∀ b : Bool, 0 < exitDistance k b ∧ exitDistance k b ≤ 15 := by decide

/-- The advance shortens the way: from QREAD where the block is short, from SEQ_JSHORT where it was not. -/
theorem exitDistance_succ_lt : ∀ k < 17, ∀ b c : Bool, k ≠ 0 ∧ (k = 2 → c = true) ∧ (k = 3 → b = false) →
    exitDistance (k + 1) c < exitDistance k b := by decide

/-- So does the way back to SEQ_TOP. -/
theorem exitDistance_zero_lt : ∀ k < 17, k ≠ 0 → ∀ b c : Bool, exitDistance 0 c < exitDistance k b := by decide

theorem stopRank_of_exited (h : s.seq.wstate = .exited) : s.stopRank = 0 := if_pos h

theorem stopRank_of_not_exited (h : s.seq.wstate ≠ .exited) : s.stopRank = exitDistance s.seq.upc s.seq.short := if_neg h

theorem stopRank_congr (h : t.seq = s.seq) : t.stopRank = s.stopRank := by rw [State.stopRank, State.stopRank, h]

theorem stopRank_le (hlt : s.seq.upc < 17) : s.stopRank ≤ 15 := by
  by_cases h : s.seq.wstate = .exited
  · exact (stopRank_of_exited h).trans_le (Nat.zero_le 15)
  · exact (stopRank_of_not_exited h).trans_le (exitDistance_bounds _ hlt _).2

theorem stopRank_eq_zero_iff (hlt : s.seq.upc < 17) : s.stopRank = 0 ↔ s.seq.wstate = .exited := by
  refine ⟨fun h0 => by_contra fun h => ?_, stopRank_of_exited⟩
  rw [stopRank_of_not_exited h] at h0
  exact (exitDistance_bounds _ hlt _).1.ne' h0

/-! ### The worker's turn -/

theorem microcommands_port : ∀ i ∈ microcommands, i.port = .w := by decide

theorem execSeqJshort_of_short {target : Nat} (h : s.seq.short = true) :
    exec (.seqJshort target) s = .next ((s.setUpc target).respond .w .ok 0 []) := by
  simp only [exec, execSeqJshort, h, if_true]

/-- The worker is still ACTIVE, at the next micro-address. -/
def Advances (s t : State) : Prop := t.seq.wstate = .active ∧ t.seq.upc = s.seq.upc + 1

theorem Advances.stopRank_lt (h : Advances s t) (ha : s.seq.wstate = .active) (hlt : s.seq.upc < 17) (h0 : s.seq.upc ≠ 0)
    (hread : s.seq.upc = 2 → t.seq.short = true) (hjump : s.seq.upc = 3 → s.seq.short = false) :
    t.stopRank < s.stopRank := by
  obtain ⟨hw, hpc⟩ := h
  rw [stopRank_of_not_exited (by simp [hw]), stopRank_of_not_exited (by simp [ha]), hpc]
  exact exitDistance_succ_lt _ hlt _ _ ⟨h0, hread, hjump⟩

theorem stopRank_lt_of_restart (ht : t.seq.wstate = .active ∧ t.seq.upc = 0) (ha : s.seq.wstate = .active)
    (hlt : s.seq.upc < 17) (h0 : s.seq.upc ≠ 0) : t.stopRank < s.stopRank := by
  obtain ⟨hw, hpc⟩ := ht
  rw [stopRank_of_not_exited (by simp [hw]), stopRank_of_not_exited (by simp [ha]), hpc]
  exact exitDistance_zero_lt _ hlt h0 _ _

theorem advances_workerDone {st : Status} {n : Nat} (hw : u.seq.wstate = .active) (hpc : u.seq.upc = s.seq.upc) :
    Ensures (workerDone st n u) (Advances s) :=
  ensures_next.2 ⟨hw, congrArg (· + 1) hpc⟩

/-- Between SEQ_JSHORT and SEQ_END every command of the ROM runs to its end. -/
theorem Started.advances (h : Started s) (ha : s.seq.wstate = .active) {k : Nat} (hk : 4 ≤ k ∧ k < 16) {i : Instr}
    (hi : microcommands[k]? = some i) : Ensures (exec i s) (Advances s) := by
  obtain ⟨hses, ⟨⟨d0, hd0, -⟩, ⟨d1, hd1, -⟩, ⟨hist, hlpf, -⟩, hfm⟩, -⟩ := h
  obtain ⟨prev, hprev⟩ := Option.isSome_iff_exists.1 hfm
  obtain ⟨hge, hlt⟩ := hk
  interval_cases k <;> cases hi
  · exact advances_workerDone ha rfl
  · rw [execBufCopy_of_ne (len := .n) hses.sN_le (by decide) rfl]
    exact advances_workerDone ha rfl
  · rw [execWinApply_of_winLen (len := .n) hses.sN_le hses.winLen rfl]
    split <;> exact advances_workerDone ha rfl
  · rw [execFftFwd_of_supported (len := .n) hses.supportN rfl]
    exact advances_workerDone ha rfl
  · rw [execSpecPower_of_le (len := .n) hses.sN_le rfl]
    exact advances_workerDone ha rfl
  · rw [execDecimate0_of_present (len := .n) hses.sN_le hd0 rfl rfl]
    exact advances_workerDone ha rfl
  · rw [execFmDemod_of_present (len := .m) hses.sM_le hprev rfl rfl]
    exact advances_workerDone ha rfl
  · rw [execLpf_of_present (len := .m) hses.sM_le hlpf rfl rfl]
    exact advances_workerDone ha rfl
  · rw [execDecimate1_of_present (len := .m) hses.sM_le hd1 rfl rfl]
    exact advances_workerDone ha rfl
  · rw [execQwriteOq_of_le (len := .k) hses.sK_le rfl rfl]
    exact advances_workerDone ha rfl
  · rw [execFftFwd_of_supported (len := .m) hses.supportM rfl]
    exact advances_workerDone ha rfl
  · rw [execSpecPower_of_le (len := .m) hses.sM_le rfl]
    exact advances_workerDone ha rfl

/-- QREAD from a closed queue returns no sample, so the block is short (40_queue R182). -/
theorem SessionInv.execQread_of_closed (h : SessionInv s) (ha : s.seq.wstate = .active) (hclosed : s.iq.isOpen = false) :
    Ensures (exec (.qread .wb .n) s) fun t => Advances s t ∧ t.seq.short = true := by
  have hN : 0 < s.len .n := Nat.lt_of_lt_of_le two_pos ((supported_iff _ _).1 h.supportN).2.1
  have hout : (s.readIq (s.len .n)).out = [] := by rw [State.readIq, queueRead_closed _ _ _ _ hclosed]
  rw [execQread_of_le (len := .n) h.sN_le rfl]
  exact ensures_next.2 ⟨⟨ha, rfl⟩, decide_eq_true (by rwa [hout])⟩

/-- In a stopping session every turn of the ACTIVE worker brings it nearer its exit: SEQ_WAIT never holds (41_worker R234). -/
theorem Stopping.exec_stopRank_lt (hl : Stopping s) (ha : s.seq.wstate = .active) (hlt : s.seq.upc < 17) {i : Instr}
    (hi : microcommands[s.seq.upc]? = some i) : Ensures (exec i s) fun t => t.stopRank < s.stopRank := by
  by_cases hmid : 4 ≤ s.seq.upc ∧ s.seq.upc < 16
  · exact (hl.advances ha hmid hi).mono fun t ht => ht.stopRank_lt ha hlt (by omega) (by omega) (by omega)
  · have hrank := stopRank_of_not_exited (s := s) (by simp [ha])
    have hends : s.seq.upc = 0 ∨ s.seq.upc = 1 ∨ s.seq.upc = 2 ∨ s.seq.upc = 3 ∨ s.seq.upc = 16 := by omega
    rcases hends with hk | hk | hk | hk | hk
    all_goals rw [hk] at hi; cases hi
    · rw [execSeqTop_of_stopReq hl.stopReq]
      exact ensures_next.2 (hrank ▸ (exitDistance_bounds _ hlt _).1)
    · rw [execSeqWait_of_passes (by simp [waitPasses, hl.stopReq])]
      exact (advances_workerDone ha rfl).mono fun t ht => ht.stopRank_lt ha hlt (by omega) (by omega) (by omega)
    · exact (hl.session.execQread_of_closed ha hl.iqClosed).mono fun t ht =>
        ht.1.stopRank_lt ha hlt (by omega) (fun _ => ht.2) (by omega)
    · cases hshort : s.seq.short with
      | true =>
        rw [execSeqJshort_of_short hshort]
        exact ensures_next.2 (stopRank_lt_of_restart ⟨ha, rfl⟩ ha hlt (by omega))
      | false =>
        rw [execSeqJshort_of_full hshort]
        exact (advances_workerDone ha rfl).mono fun t ht => ht.stopRank_lt ha hlt (by omega) (by omega) fun _ => hshort
    · exact ensures_next.2 (stopRank_lt_of_restart ⟨ha, rfl⟩ ha hlt (by omega))

theorem Inv.runWorker_of_stopping (h : Inv s) (hl : Stopping s) (ha : s.seq.wstate = .active) :
    Ensures (runWorker s) fun t => t.ses = s.ses ∧ t.stopRank < s.stopRank := by
  obtain ⟨i, hi, hrun⟩ := h.exists_microcommand ha
  rw [hrun]
  have hp : i.port = .w := microcommands_port i (List.mem_of_getElem? hi)
  exact fun t ht => ⟨exec_ses_of_port_w hp t ht, hl.exec_stopRank_lt ha h.upcLt hi t ht⟩

/-! ### The other agents' turns -/

theorem Stopping.runCommand_keepsSession (hl : Stopping s) (port : ExtPort) (w : Word) (payload : List Word) :
    Ensures (runCommand port w payload s) (KeepsSession s) := by
  cases hd : decode (portOfExt port) w payload with
  | error r =>
    rw [runCommand_of_error hd]
    exact ensures_next.2 ⟨rfl, rfl⟩
  | ok i =>
    rw [runCommand_of_ok hd]
    have hp : i.port ≠ .w := by rw [(carries_of_decode hd).1]; cases port <;> decide
    refine exec_keepsSession hp ?_ ?_
    · rintro ⟨-, hs, -⟩
      exact absurd (hl.sess.symm.trans hs) (by decide)
    · rintro ⟨-, hs⟩
      exact absurd (hl.sess.symm.trans hs) (by decide)

theorem Inv.stopping (h : Inv s) (hs : s.ses.sess = .stopping) : Stopping s := by
  rcases h.cases with hl | hl | hl
  · exact absurd (hs.symm.trans hl.sess) (by decide)
  · exact absurd (hs.symm.trans hl.sess) (by decide)
  · exact hl

theorem KeepsSession.stopRank_le (h : KeepsSession s t) (hs : s.ses.sess = .stopping) :
    t.ses.sess = .stopping ∧ t.stopRank ≤ s.stopRank :=
  ⟨h.1 ▸ hs, (stopRank_congr h.2).le⟩

/-- Settles O53: the rank falls with the worker's turns alone, and is 0 exactly where the stop completion is enabled. -/
theorem stopSequenceCompletes : Obligations.StopSequenceCompletes := by
  intro s h hs
  have hl := h.stopping hs
  have hzero := stopRank_eq_zero_iff h.upcLt
  refine ⟨stopRank_le h.upcLt, fun e t ht => ?_, fun hne => ?_, fun h0 => ?_⟩
  · cases e with
    | command port w payload => exact .inl ((hl.runCommand_keepsSession port w payload t ht).stopRank_le hs)
    | worker =>
      by_cases ha : s.seq.wstate = .active
      · obtain ⟨hses, hrank⟩ := h.runWorker_of_stopping hl ha t ht
        exact .inl ⟨hses ▸ hs, hrank.le⟩
      · cases (runWorker_of_not_active ha).symm.trans ht
        exact .inl ⟨hs, le_rfl⟩
    | control =>
      by_cases h0 : s.stopRank = 0
      · cases (runControl_of_enabled ⟨hs, hzero.1 h0⟩).symm.trans ht
        exact .inr ⟨rfl, h0, rfl⟩
      · cases (runControl_of_disabled fun hen => h0 (hzero.2 hen.2)).symm.trans ht
        exact .inl ⟨hs, le_rfl⟩
    | sync q cv pv => cases q <;> cases ht <;> exact .inl (KeepsSession.stopRank_le ⟨rfl, rfl⟩ hs)
  · have ha : s.seq.wstate = .active := hl.worker.resolve_right fun hw => hne (hzero.2 hw.1)
    obtain ⟨t, ht⟩ := h.completes_runWorker
    obtain ⟨hses, hrank⟩ := h.runWorker_of_stopping hl ha t ht
    exact ⟨t, ht, hses ▸ hs, hrank⟩
  · exact ⟨_, runControl_of_enabled ⟨hs, hzero.1 h0⟩, rfl⟩

end Sys2Proof.Machine
end

section
/-! PROOFS. An illegal command (60_exceptions R372), and when the reset configuration starts (70_reset R416). Settles O6 and
O20. -/

namespace Sys2Proof.Machine

variable {s : State}

/-- Settles O6: `runCommand_of_error` and what `illegal` leaves; each ROM word decodes by `decode_microprogram`. -/
theorem illegalCommandSetsOnlyErrIllegal : Obligations.IllegalCommandSetsOnlyErrIllegal := by
  refine ⟨fun port w payload r s hd => (runCommand_of_error hd).trans (illegal_eq s _), fun w hw => ?_⟩
  have hmem : decode .w w [] ∈ microcommands.map .ok := decode_microprogram ▸ List.mem_map_of_mem hw
  obtain ⟨i, -, hi⟩ := List.mem_map.1 hmem
  exact ⟨i, hi.symm⟩

/-- A start of a stopped block succeeds exactly when ConfigCheck finds no cause (46_control R330, R333). -/
theorem acqStart_runs_iff (h : s.ses.sess = .stopped) :
    (∃ t, exec .acqStart s = .next t ∧ t.ses.sess = .running) ↔ s.configCheck = 0 := by
  refine ⟨fun ⟨t, ht, hrun⟩ => ?_, fun hc => ⟨_, execAcqStart_started h hc, rfl⟩⟩
  by_contra hc
  cases (execAcqStart_refused h hc).symm.trans ht
  exact SessionState.noConfusion (h.symm.trans hrun)

/-- With N_FFT = 16384, DEC_D = 8, AUD_D2 = 4 and AUDIO_BUF_MS = 100 only NMAX, the capacities and the rate are left to check
(46_control R333). -/
theorem configCheck_eq_zero_iff_of_reset {r : Word} (h : s.csr = { Csrs.reset with inRate := r }) :
    s.configCheck = 0 ↔
      16384 ≤ s.cfg.nmax ∧ 16384 ≤ s.cfg.capIn ∧ 512 ≤ s.cfg.capOut ∧ 1 ≤ r.toNat ∧
      1 ≤ r.toNat / 32 * 100 / 1000 ∧ r.toNat / 32 * 100 / 1000 ≤ s.cfg.capOut := by
  have hpow : ¬ ∀ j, 16384 ≠ 2 ^ j := fun hne => hne 14 rfl
  have hpull : s.framesPerPull = r.toNat / 32 * 100 / 1000 := by rw [State.framesPerPull, State.audRate, h]; rfl
  rw [configCheck_eq_firstCause, firstCause_eq_zero_iff one_pos, hpull, h]
  simp only [Csrs.reset, BitVec.ofNat_eq_ofNat, BitVec.toNat_ofNat, Nat.reducePow, Nat.reduceMod, List.forall_mem_cons,
    List.not_mem_nil, false_imp_iff, implies_true, and_true, hpow, false_or]
  omega

/-- Settles O20: `acqStart_runs_iff`, with the causes of `configCheck_eq_zero_iff_of_reset`. -/
theorem resetConfigurationStarts : Obligations.ResetConfigurationStarts := fun _ _ _ =>
  (acqStart_runs_iff rfl).trans (configCheck_eq_zero_iff_of_reset rfl)

end Sys2Proof.Machine
end

section
/-! PROOFS. What can reach the renderer (60_exceptions R376): its pull from OQ, and the worker's micro-operations that end in an
error. Settles O56. -/

namespace Sys2Proof.Machine

variable {s u : State}

theorem extractLsb'_responseWord (st : Status) (count : Nat) :
    (responseWord st count).extractLsb' 28 4 = BitVec.ofNat 4 st.code := by
  have hcode := st.code_lt
  rw [← BitVec.toNat_inj, toNat_extractLsb'_eq_field, field, toNat_responseWord, BitVec.toNat_ofNat]
  omega

/-! ### The pull -/

/-- OQ and the parameters are all a read of OQ looks at. -/
theorem State.readOq_congr (hoq : u.oq = s.oq) (hcfg : u.cfg = s.cfg) (n : Nat) : u.readOq n = s.readOq n := by
  rw [State.readOq, State.readOq, hoq, hcfg]

theorem State.underrunOq_congr (hoq : u.oq = s.oq) (hcfg : u.cfg = s.cfg) : u.underrunOq.oq = s.underrunOq.oq := by
  rw [State.underrunOq, State.underrunOq, State.readOq_congr hoq hcfg, hoq, hcfg]
  split
  · exact hoq
  · rfl

/-- An underrun writes nothing but OQ (45_ports R314). -/
theorem State.underrunOq_eq_setOq (s : State) : s.underrunOq = s.setOq s.underrunOq.oq := by
  unfold State.underrunOq
  split <;> rfl

/-- The change writes nothing but OQ, CNT_UNDERRUN, ERR_UNDERRUN and the responses (45_ports R310 to R314). -/
def PullWrites (s t : State) : Prop :=
  t = { s with
    oq := t.oq
    csr := { s.csr with
      cntUnderrun := t.csr.cntUnderrun
      sticky := { s.csr.sticky with underrun := t.csr.sticky.underrun } }
    replies := t.replies }

theorem pullWrites_underrun (s : State) (r : Reply) : PullWrites s (s.underrunOq.countUnderrun.addReply r) := by
  rw [s.underrunOq_eq_setOq]
  rfl

/-- A pull in two states with the same OQ and the same parameters: each of its three ends is the same in both. -/
theorem audPull_congr (hoq : u.oq = s.oq) (hcfg : u.cfg = s.cfg) (frames : Nat) :
    ∃ (s' u' : State) (r : Reply), exec (.audPull frames) s = .next s' ∧ exec (.audPull frames) u = .next u' ∧
      s'.replies = r :: s.replies ∧ u'.replies = r :: u.replies ∧ s'.oq = u'.oq ∧
      (r.word.extractLsb' 28 4 ≠ 0 → r.data = silence (2 * frames)) ∧ PullWrites s s' := by
  cases hopen : s.oq.isOpen with
  | false =>
    exact ⟨_, _, _, execAudPull_of_closed frames hopen, execAudPull_of_closed frames (hoq ▸ hopen), rfl, rfl, hoq.symm,
      fun _ => rfl, rfl⟩
  | true =>
    rcases Nat.lt_or_ge s.oq.cv frames with hlt | hle
    · refine ⟨_, _, _, execAudPull_of_lt hopen hlt, execAudPull_of_lt (hoq ▸ hopen) (hoq ▸ hlt),
        congrArg _ (underrunOq_replies s), congrArg _ (underrunOq_replies u), (State.underrunOq_congr hoq hcfg).symm,
        fun _ => rfl, pullWrites_underrun s _⟩
    · have hu := execAudPull_of_le (s := u) (hoq ▸ hopen) (hoq ▸ hle)
      rw [State.readOq_congr hoq hcfg, hcfg] at hu
      refine ⟨_, _, _, execAudPull_of_le hopen hle, hu, rfl, rfl, rfl, fun hne => absurd ?_ hne, rfl⟩
      exact extractLsb'_responseWord .ok frames

/-! ### The worker's errors -/

/-- OQ is as it was, or the response is no error of a micro-operation: OK, QFULL or CLOSED (40_queue R177). -/
def KeepsOqOnError (s t : State) : Prop :=
  t.oq = s.oq ∨ ∃ (st : Status) (n : Nat), st.isErrorFree ∧ t.replies = ⟨.w, responseWord st n, []⟩ :: s.replies

theorem Quiet.oq {t : State} (h : Quiet s t) : t.oq = s.oq := by
  obtain ⟨-, -, hoq, -⟩ := h
  exact hoq

theorem execQwriteOq_keepsOqOnError (len : Len) : Ensures (execQwriteOq len s) (KeepsOqOnError s) := by
  refine ensures_withLen (ensures_next.2 (.inl rfl)) fun n =>
    ensures_next.2 (.inr ⟨(s.writeOq (s.readAu n)).status, (s.writeOq (s.readAu n)).accepted, queueWrite_isErrorFree .., ?_⟩)
  split <;> rfl

/-- Of the worker's micro-operations only QWRITE writes OQ. -/
theorem exec_keepsOqOnError {i : Instr} (hp : i.port = .w) : Ensures (exec i s) (KeepsOqOnError s) := by
  cases i with
  | qwriteIq | qavail | qopen | qclose | acqStart | acqStop | csrRead | csrWrite | devFault | audPull | snapRead => cases hp
  | qwriteOq len => exact execQwriteOq_keepsOqOnError len
  | qread dst len =>
    unfold exec execQread
    exact ensures_withLen (ensures_next.2 (.inl rfl)) fun n => ensures_next.2 (.inl (by simp))
  | seqEnd => exact ensures_next.2 (.inl rfl)
  | _ => exact (exec_quiet rfl).mono fun t ht => .inl ht.oq

theorem runWorker_keepsOqOnError : Ensures (runWorker s) (KeepsOqOnError s) := by
  rcases runWorker_cases s with ⟨-, h⟩ | ⟨-, -, h⟩ | ⟨w, -, -, ⟨i, hd, h⟩ | ⟨r, -, h⟩⟩ <;> rw [h]
  · exact ensures_next.2 (.inl rfl)
  · simp [Ensures]
  · exact exec_keepsOqOnError (carries_of_decode hd).1
  · exact ensures_next.2 (.inl rfl)

theorem not_error_of_isErrorFree {st : Status} (h : st.isErrorFree) (n : Nat) :
    ¬ ((responseWord st n).extractLsb' 28 4 = 4 ∨ (responseWord st n).extractLsb' 28 4 = 7) := by
  rw [extractLsb'_responseWord]
  obtain rfl | rfl | rfl := h <;> decide

/-- Settles O56: the pull by `audPull_congr`, the worker's error by `runWorker_keepsOqOnError`. -/
theorem rendererIsIsolated : Obligations.RendererIsIsolated := by
  refine ⟨fun frames s u hoq hcfg => audPull_congr hoq hcfg frames, fun s t r ht hr herror => ?_⟩
  obtain hoq | ⟨st, n, hst, hreplies⟩ := runWorker_keepsOqOnError t ht
  · exact hoq
  · cases hr.symm.trans hreplies
    exact absurd herror (not_error_of_isErrorFree hst n)

end Sys2Proof.Machine
end

section
/-! PROOFS. What the commands of each port may write (60_exceptions R390). Settles O58. -/

namespace Sys2Proof.Machine

variable {s : State}

/-! ### The samples -/

/-- A change that leaves the buffers, the filters, the sequencer and, but for their open flags, the queues as they were. -/
def KeepsSamples (s t : State) : Prop :=
  t.buf = s.buf ∧ t.dsp = s.dsp ∧ t.seq = s.seq ∧
  t.iq = { s.iq with isOpen := t.iq.isOpen } ∧ t.oq = { s.oq with isOpen := t.oq.isOpen }

theorem KeepsSamples.iq_buf {t : State} (h : KeepsSamples s t) : t.iq.buf = s.iq.buf := by
  obtain ⟨-, -, -, hiq, -⟩ := h
  rw [hiq]

theorem KeepsSamples.oq_buf {t : State} (h : KeepsSamples s t) : t.oq.buf = s.oq.buf := by
  obtain ⟨-, -, -, -, hoq⟩ := h
  rw [hoq]

theorem keepsSamples_beginStop (s : State) : KeepsSamples s s.beginStop := by
  unfold State.beginStop
  split <;> exact ⟨rfl, rfl, rfl, rfl, rfl⟩

theorem keepsSamples_setOpen (s : State) (q : QueueSel) (v : Bool) : KeepsSamples s (s.setOpen q v) := by
  cases q <;> exact ⟨rfl, rfl, rfl, rfl, rfl⟩

theorem keepsSamples_csrStore (s : State) (r : Csr) (v : Word) : KeepsSamples s (s.csrStore r v) := by
  cases r <;> exact ⟨rfl, rfl, rfl, rfl, rfl⟩

/-! ### The producer -/

/-- The registers are as they were, but for the producer's records. -/
def ProducerRecords (c d : Csrs) : Prop :=
  d = { c with
    cntQfullIn := d.cntQfullIn
    cntDropIn := d.cntDropIn
    sticky := { c.sticky with qfullIn := d.sticky.qfullIn, devfault := d.sticky.devfault } }

theorem exec_rights_of_port_p {i : Instr} (hp : i.port = .p) : Ensures (exec i s) fun t =>
    t.buf = s.buf ∧ t.dsp = s.dsp ∧ t.seq = s.seq ∧ t.oq = { s.oq with isOpen := t.oq.isOpen } ∧
      ProducerRecords s.csr t.csr := by
  cases i with
  | qwriteIq =>
    simp only [exec, execQwriteIq]
    split <;> exact ensures_next.2 ⟨rfl, rfl, rfl, rfl, rfl⟩
  | devFault =>
    obtain ⟨hbuf, hdsp, hseq, -, hoq⟩ := keepsSamples_beginStop (s.setSticky .devfault)
    refine ensures_next.2 ⟨hbuf, hdsp, hseq, hoq, ?_⟩
    rw [State.respond_csr, State.beginStop_csr]
    rfl
  | _ => cases hp

/-! ### The snapshot port -/

theorem exec_rights_of_port_s {i : Instr} (hp : i.port = .s) : Ensures (exec i s) fun t => t = { s with
    csr := { s.csr with sticky := { s.csr.sticky with addr := t.csr.sticky.addr } }
    replies := t.replies } := by
  cases i with
  | snapRead =>
    simp only [exec, execSnapRead, ensures_ite, ensures_raise, ensures_addrError, ensures_next]
    exact ⟨fun _ => rfl, fun _ => ⟨fun _ => rfl, fun _ => rfl⟩⟩
  | _ => cases hp

/-! ### The host -/

/-- A start loads the window and empties the queues and the working buffers, and leaves what the queues store
(46_control R330). -/
theorem execAcqStart_buffers : Ensures (exec .acqStart s) fun t =>
    (t.buf = s.buf ∨ t.buf = { s.buf.forgetWork with win := t.buf.win, winLen := t.buf.winLen }) ∧
      t.iq.buf = s.iq.buf ∧ t.oq.buf = s.oq.buf := by
  simp only [exec, execAcqStart, ensures_ite, ensures_raise, ensures_next]
  exact ⟨fun _ => ⟨.inl rfl, rfl, rfl⟩, fun _ => ⟨fun _ => ⟨.inl rfl, rfl, rfl⟩, fun _ => ⟨.inr rfl, rfl, rfl⟩⟩⟩

theorem exec_keepsSamples_of_port_h {i : Instr} (hp : i.port = .h) (hi : i ≠ .acqStart) : Ensures (exec i s) (KeepsSamples s) := by
  cases i with
  | acqStart => exact absurd rfl hi
  | qavail => exact ensures_next.2 ⟨rfl, rfl, rfl, rfl, rfl⟩
  | qopen q =>
    simp only [exec, execQopen, ensures_ite, ensures_raise, ensures_next]
    exact ⟨fun _ => keepsSamples_setOpen s q true, fun _ => ⟨rfl, rfl, rfl, rfl, rfl⟩⟩
  | qclose q => exact ensures_next.2 (keepsSamples_setOpen s q false)
  | acqStop => exact ensures_next.2 (keepsSamples_beginStop s)
  | csrRead =>
    simp only [exec, execCsrRead]
    split <;> exact ensures_next.2 ⟨rfl, rfl, rfl, rfl, rfl⟩
  | csrWrite addr v =>
    simp only [exec, execCsrWrite]
    split
    · exact ensures_next.2 ⟨rfl, rfl, rfl, rfl, rfl⟩
    next r _ =>
      simp only [ensures_ite, ensures_illegal, ensures_raise, ensures_next]
      exact ⟨fun _ => ⟨rfl, rfl, rfl, rfl, rfl⟩, fun _ =>
        ⟨fun _ => ⟨rfl, rfl, rfl, rfl, rfl⟩, fun _ => keepsSamples_csrStore s r v⟩⟩
  | _ => cases hp

/-! ### The worker -/

/-- The registers are as they were, but for the worker's records. -/
def WorkerRecords (c d : Csrs) : Prop :=
  d = { c with
    wbOffset := d.wbOffset
    nbOffset := d.nbOffset
    cntQfullOut := d.cntQfullOut
    cntDropOut := d.cntDropOut
    cntCycles := d.cntCycles
    cfgCause := d.cfgCause
    sticky := { c.sticky with
      qfullOut := d.sticky.qfullOut
      config := d.sticky.config
      illegal := d.sticky.illegal } }

/-- A change that leaves the open flags of both queues and, but for the worker's records, the registers as they were. -/
def WorkerRights (s t : State) : Prop :=
  t.iq.isOpen = s.iq.isOpen ∧ t.oq.isOpen = s.oq.isOpen ∧ WorkerRecords s.csr t.csr

theorem workerRights_of_eq {t : State} (hiq : t.iq = s.iq) (hoq : t.oq = s.oq) (hcsr : t.csr = s.csr) : WorkerRights s t := by
  refine ⟨congrArg _ hiq, congrArg _ hoq, ?_⟩
  rw [hcsr]
  rfl

/-- A micro-operation that ends normally and has touched neither queue nor register. -/
theorem workerRights_workerDone {st : Status} {n : Nat} {u : State} (hiq : u.iq = s.iq) (hoq : u.oq = s.oq)
    (hcsr : u.csr = s.csr) : Ensures (workerDone st n u) (WorkerRights s) :=
  ensures_next.2 (workerRights_of_eq hiq hoq hcsr)

theorem workerRights_illegal : Ensures (illegal .w s) (WorkerRights s) := ensures_next.2 ⟨rfl, rfl, rfl⟩

theorem workerRights_abandonCycle (cause : BitVec 4) : Ensures (abandonCycle cause s) (WorkerRights s) :=
  ensures_next.2 ⟨rfl, rfl, rfl⟩

theorem copyBuffer_workerRights (src dst : WorkBuf) (n : Nat) : Ensures (copyBuffer src dst n s) (WorkerRights s) := by
  unfold copyBuffer
  split
  · split <;> exact workerRights_workerDone (by simp) (by simp) (by simp)
  · exact workerRights_workerDone rfl rfl rfl
  · exact workerRights_illegal
  · exact workerRights_illegal

theorem exec_workerRights_of_port_w {i : Instr} (hp : i.port = .w) : Ensures (exec i s) (WorkerRights s) := by
  cases i with
  | qwriteOq =>
    unfold exec execQwriteOq
    refine ensures_withLen workerRights_illegal fun n => ?_
    dsimp only
    split <;> exact ensures_next.2 ⟨rfl, queueWrite_isOpen .., rfl⟩
  | qread dst =>
    unfold exec execQread
    refine ensures_withLen workerRights_illegal fun n => ?_
    cases dst <;> exact ensures_next.2 ⟨queueRead_isOpen .., rfl, rfl⟩
  | bufCopy src dst => exact ensures_withLen workerRights_illegal fun n => copyBuffer_workerRights src dst n
  | winApply =>
    unfold exec execWinApply
    refine ensures_withLen workerRights_illegal fun n => ?_
    simp only [ensures_ite]
    exact ⟨fun _ => ⟨fun _ => workerRights_abandonCycle 10, fun _ =>
      workerRights_workerDone (by simp) (by simp) (by simp)⟩, fun _ => workerRights_workerDone rfl rfl rfl⟩
  | fftFwd =>
    unfold exec execFftFwd
    refine ensures_withLen workerRights_illegal fun n => ?_
    simp only [ensures_ite]
    exact ⟨fun _ => workerRights_workerDone (by simp) (by simp) (by simp), fun _ => workerRights_abandonCycle 9⟩
  | specPower =>
    unfold exec execSpecPower
    exact ensures_withLen workerRights_illegal fun n => workerRights_workerDone (by simp) (by simp) (by simp)
  | decimate0 | decimate1 | fmDemod | lpf =>
    simp only [exec, execDecimate0, execDecimate1, execFmDemod, execLpf]
    refine ensures_withLen workerRights_illegal fun n => ?_
    split
    · exact ensures_useAfterTeardown
    · exact workerRights_workerDone (by simp) (by simp) (by simp)
  | seqTop =>
    simp only [exec, execSeqTop, ensures_ite, ensures_next]
    exact ⟨fun _ => workerRights_of_eq rfl rfl rfl, fun _ => workerRights_workerDone rfl rfl rfl⟩
  | seqWait =>
    simp only [exec, execSeqWait, ensures_ite, ensures_next]
    exact ⟨fun _ => workerRights_workerDone rfl rfl rfl, fun _ => workerRights_of_eq rfl rfl rfl⟩
  | seqLatch => exact ensures_next.2 ⟨rfl, rfl, rfl⟩
  | seqJshort =>
    simp only [exec, execSeqJshort, ensures_ite, ensures_next]
    exact ⟨fun _ => workerRights_of_eq rfl rfl rfl, fun _ => workerRights_workerDone rfl rfl rfl⟩
  | seqEnd => exact ensures_next.2 ⟨rfl, rfl, rfl⟩
  | _ => cases hp

/-- Settles O58: what the commands of each port do, port by port. -/
theorem portRights : Obligations.PortRights := by
  intro i s t ht
  refine ⟨fun hp => exec_rights_of_port_p hp t ht, fun hp => exec_rights_of_port_s hp t ht, fun hp => ?_, fun hp => ?_⟩
  · by_cases hi : i = .acqStart
    · subst hi
      obtain ⟨hbuf, hiq, hoq⟩ := execAcqStart_buffers t ht
      exact ⟨fun _ => hbuf, hiq, hoq, fun hne => absurd rfl hne⟩
    · have hkeeps := exec_keepsSamples_of_port_h hp hi t ht
      exact ⟨fun h => absurd h hi, hkeeps.iq_buf, hkeeps.oq_buf, fun _ => hkeeps⟩
  · exact ⟨exec_ses_of_port_w hp t ht, exec_workerRights_of_port_w hp t ht⟩

end Sys2Proof.Machine
end
